-- ==== Sys2Proof/Word.lean ====
section
/-! DEFINITION. The word types of I2CM (spec/00_scope.md R6, R11; spec/30_encoding.md R92, R97). -/

namespace Sys2Proof

/-- A byte: the `DATA_BITS = 8` of R6, and the width of `LEN_BITS` and `DIV_BITS` (D13, D14). -/
abbrev Byte := BitVec 8

/-- A bus status code: `STATUS_BITS = 5` (R6, R42). -/
abbrev Status := BitVec 5

/-- The device address held in `SLA`: `ADDR_BITS = 7` (R6, R24). -/
abbrev SlaveAddr := BitVec 7

/-- A host command word, format `CMD` (R92). -/
abbrev CmdWord := BitVec 32

/-- A micro-word, format `UOP` (R97). -/
abbrev MicroWord := BitVec 16

/-- An encoded instruction in one of the two formats of spec/opcode_table.json.  The two are told
apart by the port they arrive on, never by a bit: R92 (command port) and R97 (inside SEQ). -/
inductive EncodedWord where
  | cmd (w : CmdWord)
  | uop (w : MicroWord)
  deriving DecidableEq, Repr

end Sys2Proof
end

