-- ==== Sys2Proof/Config.lean ====
section
/-! DEFINITION. What an implementation fixes and what the spec leaves open: the parameters of
spec/00_scope.md R6 and the free values of spec/93_implementation_defined.md.  An `opaque`
constant has no body, so no proof can learn its value. -/

namespace Sys2Proof.Config

/-- `MAX_BURST = 2^LEN_BITS - 1` (R6, D13): the number of bytes of `BUF`. -/
def maxBurst : Nat := 255

/-- `AUTOINC_FLAG` (R6, R96): the bit of the register-address byte that asks for auto-increment. -/
def autoincFlag : Byte := 0x80#8

/-- `DIR_WRITE` (R6, R95, D7). -/
def dirWrite : BitVec 1 := 0#1

/-- `DIR_READ` (R6, R95, D7). -/
def dirRead : BitVec 1 := 1#1

/-! ## OPEN parameters: the seven status codes (R6, R101, D6)

Not even distinctness of the seven is assumed (R6). -/

/-- `ST_START_OK`: START-OK, expected after the opening start. -/
opaque stStartOk : Status
/-- `ST_RSTART_OK`: REPEATED-START-OK. -/
opaque stRstartOk : Status
/-- `ST_SLAW_ACK`: SLAVE-WRITE-ACK. -/
opaque stSlawAck : Status
/-- `ST_WRITE_ACK`: WRITE-ACK. -/
opaque stWriteAck : Status
/-- `ST_SLAR_ACK`: SLAVE-READ-ACK. -/
opaque stSlarAck : Status
/-- `ST_READ_ACK_OK`: READ-ACK-OK. -/
opaque stReadAckOk : Status
/-- `ST_READ_NACK_OK`: READ-NACK-OK. -/
opaque stReadNackOk : Status

/-- `CLOCK_DIVISOR` (R6, D14): the divisor HOST is configured to pass to `INIT`; OPEN. -/
opaque clockDivisor : Byte

/-- `CTL_BASE` (R60, D2): where the platform puts the controller's registers; OPEN. -/
opaque ctlBase : Nat

/-! ## Free values: `any value` of spec/93_implementation_defined.md

Each is applied to the counter `draws` of State, so two draws are unrelated. -/

/-- What a read of `SR` outside its window returns (R66, U10). -/
opaque freeSrRead : Nat → Byte
/-- What a read of `DR` returns while `CTRL.INT = 0` (R67, U11). -/
opaque freeDrRead : Nat → Byte
/-- `SR[2:0]` after a completion (R42, R100, U12). -/
opaque freeSrLow : Nat → BitVec 3
/-- `DR` after the completion of a START or a TX (R67, R73, U11). -/
opaque freeDr : Nat → Byte
/-- `BUS_OWNED` after a bus error (R80, R214, U16). -/
opaque freeBusOwned : Nat → Bool
/-- The state of the wire and the slave after anything that may change it (R48, R80, U16, U19). -/
opaque freeSlave : Nat → Nat
/-- What HOST reads from `BUF[i]` outside the response (R85, U15): the draw and the index. -/
opaque freeHostByte : Nat → Nat → Byte

end Sys2Proof.Config
end

