-- ==== Sys2Proof/Syntax.lean ====
section
/-! DEFINITION. The instructions: one constructor per row of spec/opcode_table.json, the five host
commands (spec/30_encoding.md R91 to R94) and the eleven micro-operations (R97, R98). -/

namespace Sys2Proof

/-- One constructor per row of spec/opcode_table.json. -/
inductive Instr where
  /-- `INIT`: `initialize(divisor)` (R171). -/
  | init (divisor : Byte)
  /-- `WRITE_REG`: `write_register(slave_addr, reg, value)` (R172). -/
  | writeReg (slaveAddr reg value : Byte)
  /-- `READ_REG`: `read_register(slave_addr, reg)` (R173). -/
  | readReg (slaveAddr reg : Byte)
  /-- `READ_BURST`: `read_burst(slave_addr, reg, n)` (R174). -/
  | readBurst (slaveAddr reg n : Byte)
  /-- `FORCE_STOP`: the caller's `issue_stop()` (R175). -/
  | forceStop
  /-- `U_INIT`: `initialize(clock_divisor)` (R121). -/
  | uInit (divisor : Byte)
  /-- `U_START`: `issue_start()` (R122). -/
  | uStart
  /-- `U_CLRSTART`: clear the start request (R123). -/
  | uClrStart
  /-- `U_STOP`: `issue_stop()` (R124). -/
  | uStop
  /-- `U_GO`: `clear_and_proceed()` (R125). -/
  | uGo
  /-- `U_WAIT`: `await_completion()` (R128). -/
  | uWait
  /-- `U_ACK`: `set_acknowledge(enabled)` (R129). -/
  | uAck (enabled : Bool)
  /-- `U_STATUS`: `read_status()` (R140). -/
  | uStatus
  /-- `U_WBYTE`: `write_byte(b)` (R141). -/
  | uWbyte (b : Byte)
  /-- `U_RBYTE`: `read_byte()` (R142). -/
  | uRbyte
  /-- `U_CHECK`: the engine's "expect ..., else ..." (R156): `aux` and `imm[4:0]` of R98. -/
  | uCheck (err : BitVec 4) (expected : Status)
  deriving DecidableEq, Repr

/-- The mnemonic of the instruction's row, the written form of R93, R98 and R113. -/
def Instr.mnemonic : Instr → String
  | .init _ => "INIT"
  | .writeReg _ _ _ => "WRITE_REG"
  | .readReg _ _ => "READ_REG"
  | .readBurst _ _ _ => "READ_BURST"
  | .forceStop => "FORCE_STOP"
  | .uInit _ => "U_INIT"
  | .uStart => "U_START"
  | .uClrStart => "U_CLRSTART"
  | .uStop => "U_STOP"
  | .uGo => "U_GO"
  | .uWait => "U_WAIT"
  | .uAck _ => "U_ACK"
  | .uStatus => "U_STATUS"
  | .uWbyte _ => "U_WBYTE"
  | .uRbyte => "U_RBYTE"
  | .uCheck _ _ => "U_CHECK"

end Sys2Proof
end

