-- ==== Sys2Proof/WellFormed.lean ====
section
/-! DEFINITION. Which instruction terms the spec gives a meaning: the operand ranges that the types
of Sys2Proof/Syntax.lean leave open (spec/30_encoding.md R98, R108). -/

namespace Sys2Proof

/-- R108: "A command whose `slave_addr` is 128 or more is refused." -/
def validSlaveAddr (a : Byte) : Bool := a.toNat < 128

/-- R98, R156: the `err` operand of `U_CHECK` is a result code 1 to 8. -/
def validErrCode (k : BitVec 4) : Bool := 1 ≤ k.toNat && k.toNat ≤ 8

/-- The operands are in the range the spec gives them.  Every other operand is legal at every value
of its type (R112, R121, R141, R172). -/
def Instr.wf : Instr → Bool
  | .init _ => true
  | .writeReg a _ _ => validSlaveAddr a
  | .readReg a _ => validSlaveAddr a
  | .readBurst a _ _ => validSlaveAddr a
  | .forceStop => true
  | .uInit _ => true
  | .uStart => true
  | .uClrStart => true
  | .uStop => true
  | .uGo => true
  | .uWait => true
  | .uAck _ => true
  | .uStatus => true
  | .uWbyte _ => true
  | .uRbyte => true
  | .uCheck k _ => validErrCode k

end Sys2Proof
end

