-- ==== Sys2Proof/Decode.lean ====
section
/-! DEFINITION. The decoder and the encoder of the two formats, `CMD` (spec/30_encoding.md R92 to
R94, R106 to R108) and `UOP` (R97, R98, R111), and the opcode table's masks (R94). -/

namespace Sys2Proof

/-- Why a word is no instruction. -/
inductive Reject where
  /-- R106: command codes 0b101, 0b110, 0b111. -/
  | reservedCommandCode
  /-- R107: a non-zero `rsv` field, or a non-zero field that the command does not use. -/
  | nonZeroUnusedField
  /-- R108: `slave_addr` is 128 or more. -/
  | slaveAddressAbove127
  /-- R111: micro-op codes 0xB to 0xF. -/
  | reservedMicroOpCode
  /-- R98: a micro-word whose `aux` or `imm` is not zero where the micro-op has none. -/
  | nonZeroMicroOpField
  deriving DecidableEq, Repr

/-! ## Fields (R92, R97) -/

/-- `CW[31:29]`. -/
def cmdOp (w : CmdWord) : BitVec 3 := w.extractLsb' 29 3
/-- `CW[28:24]`. -/
def cmdRsv (w : CmdWord) : BitVec 5 := w.extractLsb' 24 5
/-- `CW[23:16]`. -/
def cmdA (w : CmdWord) : Byte := w.extractLsb' 16 8
/-- `CW[15:8]`. -/
def cmdR (w : CmdWord) : Byte := w.extractLsb' 8 8
/-- `CW[7:0]`. -/
def cmdX (w : CmdWord) : Byte := w.extractLsb' 0 8
/-- `UW[15:12]`. -/
def uopCode (w : MicroWord) : BitVec 4 := w.extractLsb' 12 4
/-- `UW[11:8]`. -/
def uopAux (w : MicroWord) : BitVec 4 := w.extractLsb' 8 4
/-- `UW[7:0]`. -/
def uopImm (w : MicroWord) : Byte := w.extractLsb' 0 8

/-! ## Decoding -/

/-- Give `i` if the unused fields are zero (R107) and the device address has 7 bits (R108). -/
def cmdChecked (unusedZero addrOk : Bool) (i : Instr) : Except Reject Instr :=
  if !unusedZero then .error .nonZeroUnusedField
  else if !addrOk then .error .slaveAddressAbove127
  else .ok i

/-- The command a command word stands for (R93, R94), or why it is refused (R106 to R108). -/
def decodeCmd (w : CmdWord) : Except Reject Instr :=
  let rsv0 := cmdRsv w == 0#5
  let a0 := cmdA w == 0#8
  let r0 := cmdR w == 0#8
  let x0 := cmdX w == 0#8
  let addrOk := validSlaveAddr (cmdA w)
  match (cmdOp w).toNat with
  | 0 => cmdChecked (rsv0 && a0 && r0) true (.init (cmdX w))
  | 1 => cmdChecked rsv0 addrOk (.writeReg (cmdA w) (cmdR w) (cmdX w))
  | 2 => cmdChecked (rsv0 && x0) addrOk (.readReg (cmdA w) (cmdR w))
  | 3 => cmdChecked rsv0 addrOk (.readBurst (cmdA w) (cmdR w) (cmdX w))
  | 4 => cmdChecked (rsv0 && a0 && r0 && x0) true .forceStop
  | _ => .error .reservedCommandCode

/-- Give `i` if the fields the micro-op does not use are zero (R98). -/
def uopChecked (unusedZero : Bool) (i : Instr) : Except Reject Instr :=
  if unusedZero then .ok i else .error .nonZeroMicroOpField

/-- The micro-op a micro-word stands for (R98), or why it is invalid (R111).  Any `err` field is
read; whether it is a result code 1 to 8 is `Instr.wf`'s check. -/
def decodeUop (w : MicroWord) : Except Reject Instr :=
  let aux0 := uopAux w == 0#4
  let imm0 := uopImm w == 0#8
  match (uopCode w).toNat with
  | 0x0 => uopChecked aux0 (.uInit (uopImm w))
  | 0x1 => uopChecked (aux0 && imm0) .uStart
  | 0x2 => uopChecked (aux0 && imm0) .uClrStart
  | 0x3 => uopChecked (aux0 && imm0) .uStop
  | 0x4 => uopChecked (aux0 && imm0) .uGo
  | 0x5 => uopChecked (aux0 && imm0) .uWait
  | 0x6 => uopChecked ((uopAux w).extractLsb' 1 3 == 0#3 && imm0) (.uAck ((uopAux w).getLsbD 0))
  | 0x7 => uopChecked (aux0 && imm0) .uStatus
  | 0x8 => uopChecked aux0 (.uWbyte (uopImm w))
  | 0x9 => uopChecked (aux0 && imm0) .uRbyte
  | 0xA => uopChecked ((uopImm w).extractLsb' 5 3 == 0#3)
      (.uCheck (uopAux w) ((uopImm w).extractLsb' 0 5))
  | _ => .error .reservedMicroOpCode

/-- The decoder, total on every word of either format. -/
def decode : EncodedWord → Except Reject Instr
  | .cmd w => decodeCmd w
  | .uop w => decodeUop w

/-! ## Encoding -/

/-- A command word from its fields, `rsv = 0` (R92). -/
def packCmd (op : BitVec 3) (a r x : Byte) : CmdWord := op ++ 0#5 ++ a ++ r ++ x

/-- A micro-word from its fields (R97). -/
def packUop (code aux : BitVec 4) (imm : Byte) : MicroWord := code ++ aux ++ imm

/-- The word of an instruction (R94, R98). -/
def encode : Instr → EncodedWord
  | .init d => .cmd (packCmd 0b000#3 0#8 0#8 d)
  | .writeReg a r v => .cmd (packCmd 0b001#3 a r v)
  | .readReg a r => .cmd (packCmd 0b010#3 a r 0#8)
  | .readBurst a r n => .cmd (packCmd 0b011#3 a r n)
  | .forceStop => .cmd (packCmd 0b100#3 0#8 0#8 0#8)
  | .uInit d => .uop (packUop 0x0#4 0#4 d)
  | .uStart => .uop (packUop 0x1#4 0#4 0#8)
  | .uClrStart => .uop (packUop 0x2#4 0#4 0#8)
  | .uStop => .uop (packUop 0x3#4 0#4 0#8)
  | .uGo => .uop (packUop 0x4#4 0#4 0#8)
  | .uWait => .uop (packUop 0x5#4 0#4 0#8)
  | .uAck e => .uop (packUop 0x6#4 (0#3 ++ BitVec.ofBool e) 0#8)
  | .uStatus => .uop (packUop 0x7#4 0#4 0#8)
  | .uWbyte b => .uop (packUop 0x8#4 0#4 b)
  | .uRbyte => .uop (packUop 0x9#4 0#4 0#8)
  | .uCheck k s => .uop (packUop 0xA#4 k (0#3 ++ s))

/-! ## The opcode table's own reading: a word selects a row when `w & mask = match` (R94) -/

/-- One row of spec/opcode_table.json. -/
structure Row where
  mnemonic : String
  width : Nat
  mask : Nat
  pat : Nat
  deriving DecidableEq, Repr

/-- spec/opcode_table.json, row by row. -/
def opcodeTable : List Row := [
  ⟨"INIT", 32, 0xFFFFFF00, 0x00000000⟩,
  ⟨"WRITE_REG", 32, 0xFF800000, 0x20000000⟩,
  ⟨"READ_REG", 32, 0xFF8000FF, 0x40000000⟩,
  ⟨"READ_BURST", 32, 0xFF800000, 0x60000000⟩,
  ⟨"FORCE_STOP", 32, 0xFFFFFFFF, 0x80000000⟩,
  ⟨"U_INIT", 16, 0xFF00, 0x0000⟩,
  ⟨"U_START", 16, 0xFFFF, 0x1000⟩,
  ⟨"U_CLRSTART", 16, 0xFFFF, 0x2000⟩,
  ⟨"U_STOP", 16, 0xFFFF, 0x3000⟩,
  ⟨"U_GO", 16, 0xFFFF, 0x4000⟩,
  ⟨"U_WAIT", 16, 0xFFFF, 0x5000⟩,
  ⟨"U_ACK", 16, 0xFEFF, 0x6000⟩,
  ⟨"U_STATUS", 16, 0xFFFF, 0x7000⟩,
  ⟨"U_WBYTE", 16, 0xFF00, 0x8000⟩,
  ⟨"U_RBYTE", 16, 0xFFFF, 0x9000⟩,
  ⟨"U_CHECK", 16, 0xF0E0, 0xA000⟩ ]

/-- R94: "a word `w` selects the command when `w & mask == match`". -/
def Row.selects (r : Row) : EncodedWord → Bool
  | .cmd w => r.width == 32 && (w &&& BitVec.ofNat 32 r.mask) == BitVec.ofNat 32 r.pat
  | .uop w => r.width == 16 && (w &&& BitVec.ofNat 16 r.mask) == BitVec.ofNat 16 r.pat

/-- What the decoder reads from the word `w` of a table row of `nbits` bits. -/
def decodeTableWord (nbits w : Nat) : Option Instr :=
  if 2 ^ nbits ≤ w then none
  else if nbits = 32 then (decodeCmd (BitVec.ofNat 32 w)).toOption
  else if nbits = 16 then (decodeUop (BitVec.ofNat 16 w)).toOption
  else none

end Sys2Proof
end

