-- ==== Sys2Proof/Machine/State.lean ====
section
/-! DEFINITION. The state of I2CM: every piece of state of spec/10_state.md (R20 to R52), the two
ports HOST sees (spec/00_scope.md R16), the moves of the outside world that are still to come, and
State.reset (R49, R230).  Also the reasons a step can stop. -/

namespace Sys2Proof.Machine

/-! ## The kinds of value the registers hold

spec/30_encoding.md: the named form is normative, the bit pattern its default encoding
(Sys2Proof/Machine/Codes.lean).  Reserved codes have no constructor (R111). -/

/-- The values of `PH` (R21, R104). -/
inductive Phase where
  | idle | start | slaw | rega | value | rstart | slar | rx | stop | init
  deriving DecidableEq, Repr

/-- The values of `US` (R22, R105). -/
inductive MicroStep where
  | cfg | go | wait | stat | clr | chk | data
  deriving DecidableEq, Repr

/-- The values of `OP` (R23, R93). -/
inductive Op where
  | init | writeReg | readReg | readBurst | forceStop
  deriving DecidableEq, Repr

/-- The values of `RESULT` (R31, R102, R200): success, the eight bus error kinds, and the
input-validation kind. -/
inductive Result where
  | ok | startError | repeatedStartError | slaveWriteError | slaveReadError
  | writeError | readError | ackError | nackError | invalidLength
  deriving DecidableEq, Repr

/-- What `INFLIGHT` can hold besides `none` (R46).  A stop never uses `INFLIGHT` (R72). -/
inductive InFlight where
  | start
  | tx (b : Byte)
  | rx (ack : Bool)
  deriving DecidableEq, Repr

/-- The kind of primitive a launch hands to CTL (R72, R126). -/
inductive PrimKind where
  | start | stop | tx | rx
  deriving DecidableEq, Repr

/-- A trace entry (R44, R115). -/
inductive TraceEntry where
  | start
  | stop
  | tx (b : Byte)
  | rx (ack : Bool)
  deriving DecidableEq, Repr

/-- One move of one agent (R8): who steps next, and with which input.  `complete` and `stopDone` are
CTL's two steps (R73, R74) with the values it draws (R77); `offer` is HOST raising `cmd_valid` with a
command word (R16); `reset` is the reset event (R19, R230). -/
inductive Move where
  | seq
  | complete (s : Status) (d : Byte)
  | stopDone
  | offer (w : CmdWord)
  | reset
  deriving DecidableEq, Repr

/-- The transfer buffer's bytes by index, in one canonical form: indexes strictly rising, no entry
equal to what an unlisted index holds (`Memory.wf` in Sys2Proof/Machine/Ops.lean). -/
abbrev Memory := List Host.Cell

/-! ## The state -/

/-- The state of the block (SEQ), the controller with the wire and slave (CTL), and the ports. -/
@[ext]
structure State where
  /-- `PH`, the phase register (R21). -/
  ph : Phase
  /-- `US`, the micro-step register (R22). -/
  us : MicroStep
  /-- `OP`, the accepted command code (R23). -/
  op : Op
  /-- `SLA`, the device address (R24). -/
  sla : SlaveAddr
  /-- `REG`, the register address (R25). -/
  reg : Byte
  /-- `VAL`, the value byte of a write (R26). -/
  val : Byte
  /-- `DIVR`, the divisor held from acceptance to `U_INIT` (R52). -/
  divr : Byte
  /-- `LEN`, the number of bytes to receive (R27). -/
  len : Byte
  /-- `IDX`, the index of the burst loop (R28). -/
  idx : Byte
  /-- `ST_LATCH`, the status as `read_status` read it (R29). -/
  stLatch : Status
  /-- `BUF`, the transfer buffer (R30). -/
  buf : Memory
  /-- `RESULT` (R31). -/
  result : Result
  /-- `RESULT_VALID` (R32). -/
  resultValid : Bool
  /-- `COUNT`, the number of valid bytes of the response (R33). -/
  count : Byte
  /-- `INITIALIZED` (R34). -/
  initialized : Bool
  /-- `CTRL`, the control word (R36 to R41, R99); its fields are read and written through
  Sys2Proof/Machine/Flags.lean. -/
  ctrl : Byte
  /-- `SR`, the status register, `STATUS = SR[7:3]` (R42, R100). -/
  sr : Byte
  /-- `DR`, the data register (R43). -/
  dr : Byte
  /-- `BR`, the clock-divisor register (R45). -/
  br : Byte
  /-- `TRACE`, the primitives launched since reset, oldest first (R44). -/
  trace : List TraceEntry
  /-- `INFLIGHT`, the primitive CTL has been handed and has not completed (R46). -/
  inflight : Option InFlight
  /-- `STOP_BUSY`: a launched stop has not yet been executed (R47). -/
  stopBusy : Bool
  /-- `BUS_OWNED`: a start has completed and no stop has been executed since (R47). -/
  busOwned : Bool
  /-- The state of the wire and the slave, which the spec leaves opaque (R48): a token whose value
  means nothing and which no rule reads. -/
  slave : Nat
  /-- `cmd_valid` and `cmd_word` of the host command interface (R16): the command HOST offers and
  holds until it is accepted (assumption A2 of spec/93_implementation_defined.md). -/
  cmd : Option CmdWord
  /-- The model's own: a micro-word put in place of the one `(PH, US)` selects, for one step.
  Nothing in a run sets it; only `State.withFetchWord` does (notes/assumptions/3.md). -/
  uw : Option MicroWord
  /-- The model's own: the moves of the agents still to come, first one next; when there is none
  left SEQ steps (notes/assumptions/1.md). -/
  schedule : List Move
  /-- The model's own: how many free values have been drawn (notes/assumptions/5.md). -/
  draws : Nat
  deriving DecidableEq, Repr

/-! ## Why a step stops -/

/-- The machine stops with a fault. -/
inductive Fault where
  /-- Raised by `U_RBYTE` when `IDX` is 255, an index `BUF` does not have (R30, R50: the indexes are
  `0 .. MAX_BURST - 1`).  Safe: the spec gives no effect, and no state with `IDX < LEN` raises it. -/
  | bufferIndexOutside
  deriving DecidableEq, Repr

/-- The step has no meaning under the spec, which asks for a refusal by name (R13). -/
inductive Refusal where
  /-- Raised by an arm of `exec` whose instruction has no meaning yet.  Safe. -/
  | notModelled (mnemonic : String)
  /-- Raised by the fetch of a word that is no instruction (R106, R107, R108, R111).  Safe. -/
  | undecodable (why : Reject)
  /-- Raised by a transaction command whose `slave_addr` is 128 or more (R108).  Safe. -/
  | slaveAddressAbove127
  /-- Raised by a command other than `INIT` while `INITIALIZED = 0` (R109).  Safe. -/
  | notInitialized
  /-- Raised by `INIT` while `INITIALIZED = 1` (R109).  Safe. -/
  | alreadyInitialized
  /-- Raised by the sequencer at a pair `(PH, US)` that R150 has no row for.  Safe. -/
  | noMicroOpHere
  /-- Raised by the sequencer where R177 or R158 has no entry for `OP` and `PH` ("unreachable").
  Safe. -/
  | unreachableTransition
  /-- Raised by a launch in a phase that has no primitive: R126, "`U_GO` is never executed in `IDLE`
  or `INIT`".  Safe. -/
  | noPrimitiveInPhase
  /-- Raised by `U_CHECK` on a mismatch when `err` is not a result code 1 to 8 (R156).  Safe. -/
  | errorCodeOutOfRange
  /-- Raised by a controller access whose width is not one byte (R61, U17).  Safe. -/
  | controllerAccessWidth
  /-- Raised by a controller access at an offset other than the four of R60 (R61).  Safe. -/
  | noSuchControllerRegister
  /-- Raised by a read of `BR`, which R60 gives for writing only.  Safe. -/
  | controllerRegisterNotReadable
  /-- Raised by a write of `SR`, which R60 gives for reading only.  Safe. -/
  | controllerRegisterNotWritable
  deriving DecidableEq, Repr

/-- How a step ends. -/
abbrev Outcome := Host.Outcome State Fault Refusal

/-! ## Reset (R49, R230) -/

/-- The machine right after reset.  The values R49 gives: `PH`, `US`, `RESULT_VALID`, `COUNT`,
`INITIALIZED`, `CTRL`, `BR`, `TRACE`, `INFLIGHT`, `STOP_BUSY`, `BUS_OWNED`.  The values it leaves
unspecified are the model's: notes/assumptions/6.md (`OP` to `RESULT`), 7.md (`SR`, `DR`), 8.md
(`BUF`), 9.md (the slave token and the model's own fields). -/
def State.reset : State where
  ph := .idle
  us := .cfg
  op := .init
  sla := 0#7
  reg := 0#8
  val := 0#8
  divr := 0#8
  len := 0#8
  idx := 0#8
  stLatch := 0#5
  buf := []
  result := .ok
  resultValid := false
  count := 0#8
  initialized := false
  ctrl := 0x00#8
  sr := 0xF8#8
  dr := 0xFF#8
  br := 0#8
  trace := []
  inflight := none
  stopBusy := false
  busOwned := false
  slave := 0
  cmd := none
  uw := none
  schedule := []
  draws := 0

/-! ## Named updates of one register or of the registers one rule writes together -/

/-- `pc <- (PH', US')` (R12). -/
def State.setPc (s : State) (p : Phase) (u : MicroStep) : State := { s with ph := p, us := u }
/-- The first two lines of R170: `RESULT_VALID <- 0; OP <- op`. -/
def State.setOp (s : State) (o : Op) : State := { s with op := o, resultValid := false }
/-- `SLA` and `REG` (R24, R25), loaded together at acceptance (R170). -/
def State.setTarget (s : State) (a : SlaveAddr) (r : Byte) : State := { s with sla := a, reg := r }
/-- `VAL` (R26). -/
def State.setVal (s : State) (v : Byte) : State := { s with val := v }
/-- `DIVR` (R52). -/
def State.setDivr (s : State) (d : Byte) : State := { s with divr := d }
/-- `LEN` (R27). -/
def State.setLen (s : State) (n : Byte) : State := { s with len := n }
/-- `IDX` (R28). -/
def State.setIdx (s : State) (i : Byte) : State := { s with idx := i }
/-- `ST_LATCH` (R29). -/
def State.setStLatch (s : State) (c : Status) : State := { s with stLatch := c }
/-- `BUF` (R30). -/
def State.setBuf (s : State) (m : Memory) : State := { s with buf := m }
/-- `RESULT <- code; COUNT <- count; RESULT_VALID <- 1` of `respond` (R12). -/
def State.setResponse (s : State) (k : Result) (c : Byte) : State :=
  { s with result := k, count := c, resultValid := true }
/-- `INITIALIZED <- 1` (R121). -/
def State.setInitialized (s : State) (b : Bool) : State := { s with initialized := b }
/-- `CTRL`, the whole byte (R36). -/
def State.setCtrl (s : State) (c : Byte) : State := { s with ctrl := c }
/-- `SR` (R42). -/
def State.setSr (s : State) (v : Byte) : State := { s with sr := v }
/-- `DR` (R43). -/
def State.setDr (s : State) (v : Byte) : State := { s with dr := v }
/-- `BR` (R45). -/
def State.setBr (s : State) (v : Byte) : State := { s with br := v }
/-- Append to `TRACE` (R44). -/
def State.addTrace (s : State) (e : TraceEntry) : State := { s with trace := s.trace ++ [e] }
/-- `INFLIGHT` (R46). -/
def State.setInflight (s : State) (p : Option InFlight) : State := { s with inflight := p }
/-- `STOP_BUSY` (R47). -/
def State.setStopBusy (s : State) (b : Bool) : State := { s with stopBusy := b }
/-- `BUS_OWNED` (R47). -/
def State.setBusOwned (s : State) (b : Bool) : State := { s with busOwned := b }
/-- The opaque token of the wire and the slave (R48). -/
def State.setSlave (s : State) (n : Nat) : State := { s with slave := n }
/-- The command HOST offers (R16). -/
def State.setCmd (s : State) (w : Option CmdWord) : State := { s with cmd := w }
/-- The micro-word put in place of the selected one. -/
def State.setUw (s : State) (w : Option MicroWord) : State := { s with uw := w }
/-- The moves still to come. -/
def State.setSchedule (s : State) (l : List Move) : State := { s with schedule := l }
/-- One more free value has been drawn. -/
def State.nextDraw (s : State) : State := { s with draws := s.draws + 1 }

end Sys2Proof.Machine
end

