-- ==== Sys2Proof/Machine/Codes.lean ====
section
/-! DEFINITION. The default encodings of the values State holds by name (spec/30_encoding.md R93,
R102, R104, R105, R115) and the controller's register map (spec/20_memory.md R60). -/

namespace Sys2Proof.Machine

/-- R104. -/
def Phase.code : Phase → BitVec 4
  | .idle => 0#4
  | .start => 1#4
  | .slaw => 2#4
  | .rega => 3#4
  | .value => 4#4
  | .rstart => 5#4
  | .slar => 6#4
  | .rx => 7#4
  | .stop => 8#4
  | .init => 9#4

/-- R105. -/
def MicroStep.code : MicroStep → BitVec 3
  | .cfg => 0#3
  | .go => 1#3
  | .wait => 2#3
  | .stat => 3#3
  | .clr => 4#3
  | .chk => 5#3
  | .data => 6#3

/-- R93. -/
def Op.code : Op → BitVec 3
  | .init => 0b000#3
  | .writeReg => 0b001#3
  | .readReg => 0b010#3
  | .readBurst => 0b011#3
  | .forceStop => 0b100#3

/-- R102, R200. -/
def Result.code : Result → BitVec 4
  | .ok => 0#4
  | .startError => 1#4
  | .repeatedStartError => 2#4
  | .slaveWriteError => 3#4
  | .slaveReadError => 4#4
  | .writeError => 5#4
  | .readError => 6#4
  | .ackError => 7#4
  | .nackError => 8#4
  | .invalidLength => 9#4

/-- R102's column "Bus error": the eight kinds of the source's §7. -/
def Result.isBusError : Result → Bool
  | .ok => false
  | .invalidLength => false
  | .startError => true
  | .repeatedStartError => true
  | .slaveWriteError => true
  | .slaveReadError => true
  | .writeError => true
  | .readError => true
  | .ackError => true
  | .nackError => true

/-- The bus error kind an `err` operand names (R98: error code 1 to 8). -/
def Result.ofErrCode (k : BitVec 4) : Option Result :=
  match k.toNat with
  | 1 => some .startError
  | 2 => some .repeatedStartError
  | 3 => some .slaveWriteError
  | 4 => some .slaveReadError
  | 5 => some .writeError
  | 6 => some .readError
  | 7 => some .ackError
  | 8 => some .nackError
  | _ => none

/-- R115: kind in bits 9:8, payload in bits 7:0. -/
def TraceEntry.code : TraceEntry → BitVec 10
  | .start => 0#2 ++ 0#8
  | .stop => 1#2 ++ 0#8
  | .tx b => 2#2 ++ b
  | .rx a => 3#2 ++ (0#7 ++ BitVec.ofBool a)

/-- The kind of a trace entry. -/
def TraceEntry.kind : TraceEntry → PrimKind
  | .start => .start
  | .stop => .stop
  | .tx _ => .tx
  | .rx _ => .rx

/-- The controller's four registers (R60). -/
inductive CtlReg where
  | ctrl | sr | dr | br
  deriving DecidableEq, Repr

/-- The byte offset of a register from `CTL_BASE`, the `reg_addr` of R18 (R60, D2). -/
def CtlReg.offset : CtlReg → Nat
  | .ctrl => 0
  | .sr => 1
  | .dr => 2
  | .br => 3

/-- The register at an offset. -/
def CtlReg.ofOffset : Nat → Option CtlReg
  | 0 => some .ctrl
  | 1 => some .sr
  | 2 => some .dr
  | 3 => some .br
  | _ => none

/-- The platform address of a register (R60); no rule depends on it. -/
def CtlReg.address (r : CtlReg) : Nat := Config.ctlBase + r.offset

end Sys2Proof.Machine
end

