-- ==== Sys2Proof/Machine/Flags.lean ====
section
/-! DEFINITION. The flags: the fields of the control word `CTRL` (spec/30_encoding.md R99,
spec/20_memory.md R64, R65), the status field of `SR` (R100), and the flags derived from the state
(spec/10_state.md R35). -/

namespace Sys2Proof.Machine

/-- The fields of `CTRL` that a field write can change (R64, R99). -/
inductive CtrlField where
  | start | stop | enable | ack
  deriving DecidableEq, Repr

/-- The position of a field in `CTRL` (R99, D3). -/
def CtrlField.bit : CtrlField → Nat
  | .ack => 6
  | .start => 5
  | .stop => 4
  | .enable => 2

/-- One field of a `CTRL` byte. -/
def ctrlField (f : CtrlField) (c : Byte) : Bool := c.getLsbD f.bit

/-- `CTRL.INT`, bit 7: the operation-complete flag (R37, R99). -/
def ctrlInt (c : Byte) : Bool := c.getLsbD 7

/-- The bits of `CTRL` that SEQ's writes keep: `ACK`, `START`, `STOP`, `ENABLE` (R64, R125). -/
def ctrlFieldsMask : Byte := 0x74#8

/-- The bits of `CTRL` that are not reserved (R99). -/
def ctrlUsedMask : Byte := 0xF4#8

/-- `c` with bit `i` at `b`. -/
def withBit (c : Byte) (i : Nat) (b : Bool) : Byte :=
  if b then c ||| (1#8 <<< i) else c &&& ~~~(1#8 <<< i)

/-- The byte a field write puts on the bus (R64): the field at its new value, the other fields as
they are, the reserved bits 0, `INT` 0. -/
def fieldWriteByte (f : CtrlField) (b : Bool) (c : Byte) : Byte :=
  withBit (c &&& ctrlFieldsMask) f.bit b

/-- What `CTRL` holds after the byte `v` is written over `old` (R64, R65): the four fields from
`v`, the reserved bits 0, `INT` cleared by a 1 and left alone by a 0. -/
def storeCtrl (old v : Byte) : Byte :=
  (v &&& ctrlFieldsMask) ||| (if ctrlInt v then 0x00#8 else old &&& 0x80#8)

/-- The byte `clear_and_proceed` writes (R125): the fields kept, `INT` written 1. -/
def goByte (c : Byte) : Byte := (c &&& ctrlFieldsMask) ||| 0x80#8

/-- The byte `initialize` writes (R121): `ACK = 1`, `ENABLE = 1`, `INT` written 0. -/
def initByte : Byte := 0b0100_0100#8

/-- CTL sets `CTRL.INT` (R37, R73). -/
def setInt (c : Byte) : Byte := withBit c 7 true

/-- CTL clears `CTRL.STOP` (R40, R74). -/
def clearStop (c : Byte) : Byte := withBit c CtrlField.stop.bit false

/-- `(SR & 0xF8)[7:3]`: the status field as `read_status` takes it (R100, R140). -/
def statusOf (sr : Byte) : Status := (sr &&& 0xF8#8).extractLsb' 3 5

/-- An `SR` byte with `STATUS = s` and the low three bits given (R42, R100). -/
def packSr (s : Status) (low : BitVec 3) : Byte := s ++ low

/-- `BUSY = (PH != IDLE)` (R35). -/
def State.busy (s : State) : Bool := s.ph != .idle

/-- The window in which `SR` and a received `DR` are valid (R66, R67): it opens when CTL sets
`CTRL.INT` and closes at the next launch. -/
def State.windowOpen (s : State) : Bool := ctrlInt s.ctrl

end Sys2Proof.Machine
end

