-- ==== Sys2Proof/Machine/Operands.lean ====
section
/-! DEFINITION. The operands: the bytes the engine assembles for the bus (spec/30_encoding.md R95,
R96) and what each phase sends, expects and reports (spec/42_protocol_steps.md R158). -/

namespace Sys2Proof.Machine

/-- R95: the address byte, `SLA[6:0] ## dir`. -/
def slaByte (sla : SlaveAddr) (dir : BitVec 1) : Byte := sla ++ dir

/-- R96: the register-address byte; a burst sets the auto-increment flag. -/
def regAddrByte (o : Op) (reg : Byte) : Byte :=
  if o = .readBurst then reg ||| Config.autoincFlag else reg

/-- R170: `SLA <- slave_addr[6:0]`. -/
def slaOperand (slaveAddr : Byte) : SlaveAddr := slaveAddr.setWidth 7

/-- R154: `last <- (IDX == LEN - 1)`. -/
def State.isLast (s : State) : Bool := s.idx == s.len - 1#8

/-- R154: the acknowledge level of the next received byte, 0 for the last and 1 for every other. -/
def State.ackLevel (s : State) : Bool := !s.isLast

/-- R158: the byte a transmit phase stages; none in a phase that transmits nothing. -/
def State.phaseByte (s : State) : Option Byte :=
  match s.ph with
  | .slaw => some (slaByte s.sla Config.dirWrite)
  | .rega => some (regAddrByte s.op s.reg)
  | .value => some s.val
  | .slar => some (slaByte s.sla Config.dirRead)
  | .idle => none
  | .start => none
  | .rstart => none
  | .rx => none
  | .stop => none
  | .init => none

/-- R158, column `exp`: the one status each awaited phase expects. -/
def State.expected (s : State) : Option Status :=
  match s.ph with
  | .start => some Config.stStartOk
  | .slaw => some Config.stSlawAck
  | .rega => some Config.stWriteAck
  | .value => some Config.stWriteAck
  | .rstart => some Config.stRstartOk
  | .slar => some Config.stSlarAck
  | .rx => some (if s.isLast then Config.stReadNackOk else Config.stReadAckOk)
  | .idle => none
  | .stop => none
  | .init => none

/-- R158, column `err`: the kind each awaited phase reports on a mismatch.  For the last received
byte it depends on `OP`; no other `OP` than the two reads is ever in `RX` (R177). -/
def State.errorKind (s : State) : Option Result :=
  match s.ph with
  | .start => some .startError
  | .slaw => some .slaveWriteError
  | .rega => some .writeError
  | .value => some .writeError
  | .rstart => some .repeatedStartError
  | .slar => some .slaveReadError
  | .rx =>
    if s.isLast then
      match s.op with
      | .readBurst => some .nackError
      | .readReg => some .readError
      | .init => none
      | .writeReg => none
      | .forceStop => none
    else some .ackError
  | .idle => none
  | .stop => none
  | .init => none

/-- R126: the kind of primitive a `U_GO` launches. -/
def Phase.kind : Phase → Option PrimKind
  | .start => some .start
  | .rstart => some .start
  | .slaw => some .tx
  | .rega => some .tx
  | .value => some .tx
  | .slar => some .tx
  | .rx => some .rx
  | .stop => some .stop
  | .idle => none
  | .init => none

/-- R150, R155: the count of the stop step's response. -/
def State.okCount (s : State) : Byte :=
  match s.op with
  | .readReg => s.len
  | .readBurst => s.len
  | .init => 0#8
  | .writeReg => 0#8
  | .forceStop => 0#8

end Sys2Proof.Machine
end

