-- ==== Sys2Proof/Machine/Ops.lean ====
section
/-! DEFINITION. The shared operations: the transfer buffer, the one-byte controller accesses
(spec/20_memory.md R60 to R69), the launch (R72), the response (spec/00_scope.md R12) and the abort
that takes the place of an exception (spec/42_protocol_steps.md R157, spec/60_exceptions.md R214). -/

namespace Sys2Proof.Machine

/-! ## The transfer buffer -/

/-- What an index that has not been listed holds: notes/assumptions/8.md. -/
def Memory.blank : Byte := 0#8

/-- Read one byte. -/
def Memory.read : Memory → Nat → Byte
  | [], _ => Memory.blank
  | c :: m, i => if c.1 = i then c.2 else Memory.read m i

/-- Write one byte, keeping the canonical form. -/
def Memory.write : Memory → Nat → Byte → Memory
  | [], i, v => if v = Memory.blank then [] else [(i, v)]
  | c :: m, i, v =>
    if i < c.1 then (if v = Memory.blank then c :: m else (i, v) :: c :: m)
    else if c.1 = i then (if v = Memory.blank then m else (i, v) :: m)
    else c :: Memory.write m i v

/-- The canonical form: indexes strictly rising, no entry equal to `Memory.blank`. -/
def Memory.wf : Memory → Bool
  | [] => true
  | c :: m => c.2 != Memory.blank && m.all (fun d => c.1 < d.1) && Memory.wf m

/-- Every listed index is one `BUF` has: `0 .. MAX_BURST - 1` (R30). -/
def Memory.bounded (m : Memory) : Bool := m.all (fun c => c.1 < Config.maxBurst)

/-! ## The response and the abort -/

/-- `respond(code, count)` (R12). -/
def respond (k : Result) (c : Byte) (s : State) : State := (s.setResponse k c).setPc .idle .cfg

/-- The wire and the slave may have changed in a way the spec leaves open (R48). -/
def disturbSlave (s : State) : State := s.setSlave (Config.freeSlave s.draws)

/-- `raise <Kind>()` (R157): the block answers with the kind and no bytes and returns to `IDLE`;
nothing else SEQ can see changes, and there is no return from it (R216).  CTL's hidden state is
unconstrained afterwards (R80, R214): free values. -/
def raiseError (k : Result) (s : State) : State :=
  respond k 0#8 (disturbSlave (s.setBusOwned (Config.freeBusOwned s.draws))).nextDraw

/-! ## The launch -/

/-- R72: what CTL latches when a primitive of kind `k` is launched, and the trace entry. -/
def launch (k : PrimKind) (s : State) : State :=
  match k with
  | .start => (s.setInflight (some .start)).addTrace .start
  | .tx => (s.setInflight (some (.tx s.dr))).addTrace (.tx s.dr)
  | .rx => (s.setInflight (some (.rx (ctrlField .ack s.ctrl)))).addTrace
      (.rx (ctrlField .ack s.ctrl))
  | .stop => (s.setStopBusy true).addTrace .stop

/-! ## The controller accesses -/

/-- A read of `SR` (R66): its content inside the window, any value outside it. -/
def readSr (s : State) : Byte × State :=
  if s.windowOpen then (s.sr, s) else (Config.freeSrRead s.draws, s.nextDraw)

/-- A read of `DR` (R67): its content from a completion to the next launch, any value otherwise. -/
def readDr (s : State) : Byte × State :=
  if s.windowOpen then (s.dr, s) else (Config.freeDrRead s.draws, s.nextDraw)

/-- `MemRead(a, n)` (R12, R60, R61): `a` is the register's offset. -/
def memRead (a n : Nat) (s : State) : Except Refusal (Byte × State) :=
  if n = 1 then
    match CtlReg.ofOffset a with
    | some .ctrl => .ok (s.ctrl &&& ctrlUsedMask, s)
    | some .sr => .ok (readSr s)
    | some .dr => .ok (readDr s)
    | some .br => .error .controllerRegisterNotReadable
    | none => .error .noSuchControllerRegister
  else .error .controllerAccessWidth

/-- A write of `CTRL` (R64, R65): a 1 in bit 7 clears the flag and launches the primitive of the
phase (R72, R126). -/
def writeCtrl (v : Byte) (s : State) : Except Refusal State :=
  if ctrlInt v then
    match s.ph.kind with
    | some k => .ok (launch k (s.setCtrl (storeCtrl s.ctrl v)))
    | none => .error .noPrimitiveInPhase
  else .ok (s.setCtrl (storeCtrl s.ctrl v))

/-- `MemWrite(a, n, v)` (R12, R60, R61). -/
def memWrite (a n : Nat) (v : Byte) (s : State) : Except Refusal State :=
  if n = 1 then
    match CtlReg.ofOffset a with
    | some .ctrl => writeCtrl v s
    | some .sr => .error .controllerRegisterNotWritable
    | some .dr => .ok (s.setDr v)
    | some .br => .ok (s.setBr v)
    | none => .error .noSuchControllerRegister
  else .error .controllerAccessWidth

/-- `CTRL.F <- b` (R12, R64). -/
def writeField (f : CtrlField) (b : Bool) (s : State) : Except Refusal State :=
  memWrite CtlReg.ctrl.offset 1 (fieldWriteByte f b s.ctrl) s

/-- Go on with an access's value, or stop with its refusal. -/
def orRefuse {α : Type} (r : Except Refusal α) (k : α → Outcome) : Outcome :=
  match r with
  | .ok x => k x
  | .error e => .refused e

end Sys2Proof.Machine
end

