-- ==== Sys2Proof/Machine/Controller.lean ====
section
/-! DEFINITION. The steps of the controller agent CTL (spec/20_memory.md R72 to R80) and the reset
event (spec/70_reset_and_hazards.md R230). -/

namespace Sys2Proof.Machine

/-- R73, R75: when `E_COMPLETE` is enabled. -/
def State.completeEnabled (s : State) : Bool :=
  match s.inflight with
  | none => false
  | some .start => !s.stopBusy
  | some (.tx _) => true
  | some (.rx _) => true

/-- R73: a START completed with either start code makes the bus owned. -/
def ownedAfter (p : InFlight) (st : Status) (owned : Bool) : Bool :=
  match p with
  | .start => owned || st == Config.stStartOk || st == Config.stRstartOk
  | .tx _ => owned
  | .rx _ => owned

/-- R67, R73: `DR` after the completion: the received byte, or any value. -/
def dataAfter (p : InFlight) (d : Byte) (n : Nat) : Byte :=
  match p with
  | .rx _ => d
  | .start => Config.freeDr n
  | .tx _ => Config.freeDr n

/-- R73: the effect of completing the primitive `p` with status `st` and byte `d`. -/
def completeWith (p : InFlight) (st : Status) (d : Byte) (s : State) : State :=
  (disturbSlave
    (((((s.setSr (packSr st (Config.freeSrLow s.draws))).setDr (dataAfter p d s.draws)).setBusOwned
      (ownedAfter p st s.busOwned)).setInflight none).setCtrl (setInt s.ctrl))).nextDraw

/-- `E_COMPLETE(st, d)` (R73).  Where it is not enabled CTL has no such step and nothing happens. -/
def eComplete (st : Status) (d : Byte) (s : State) : State :=
  match s.inflight with
  | some p => if s.completeEnabled then completeWith p st d s else s
  | none => s

/-- `E_STOPDONE` (R74), enabled when `STOP_BUSY = 1`. -/
def eStopDone (s : State) : State :=
  if s.stopBusy then
    (disturbSlave (((s.setCtrl (clearStop s.ctrl)).setStopBusy false).setBusOwned false)).nextDraw
  else s

/-- The reset event (R230): the block and the controller go to `State.reset`; what it does to the
slave is open (R231, U19); HOST's offer and the moves to come are not the block's (R49). -/
def resetEvent (s : State) : State :=
  { State.reset with
    slave := Config.freeSlave s.draws
    cmd := s.cmd
    schedule := s.schedule
    draws := s.draws + 1 }

end Sys2Proof.Machine
end

