-- ==== Sys2Proof/Machine/Sequencer.lean ====
section
/-! DEFINITION. How SEQ sequences micro-ops (spec/42_protocol_steps.md R150) through the phases
(spec/43_transactions.md R177). -/

namespace Sys2Proof.Machine

/-- The micro-operation of a row of R150, without its operands. -/
inductive UopKind where
  | init | start | clrStart | stop | go | wait | ack | status | wbyte | rbyte | check
  deriving DecidableEq, Repr

/-- The start phases of R150. -/
def Phase.isStart : Phase → Bool
  | .start => true
  | .rstart => true
  | .idle => false
  | .slaw => false
  | .rega => false
  | .value => false
  | .slar => false
  | .rx => false
  | .stop => false
  | .init => false

/-- R150, columns `US` and "Micro-op": what the pair `(PH, US)` selects; none where the table has no
row. -/
def selected (p : Phase) (u : MicroStep) : Option UopKind :=
  match p with
  | .idle => none
  | .init => match u with
    | .cfg => some .init
    | _ => none
  | .stop => match u with
    | .cfg => some .stop
    | .go => some .go
    | _ => none
  | .rx => match u with
    | .cfg => some .ack
    | .go => some .go
    | .wait => some .wait
    | .stat => some .status
    | .chk => some .check
    | .data => some .rbyte
    | .clr => none
  | .start | .rstart => match u with
    | .cfg => some .start
    | .go => some .go
    | .wait => some .wait
    | .stat => some .status
    | .clr => some .clrStart
    | .chk => some .check
    | .data => none
  | .slaw | .rega | .value | .slar => match u with
    | .cfg => some .wbyte
    | .go => some .go
    | .wait => some .wait
    | .stat => some .status
    | .chk => some .check
    | .clr => none
    | .data => none

/-- R177: the next phase after a check that passes.  `RX` is left by `U_RBYTE`, not by its check. -/
def nextPhase (o : Op) (p : Phase) : Option Phase :=
  match p with
  | .start => some .slaw
  | .slaw => some .rega
  | .rega => match o with
    | .writeReg => some .value
    | .readReg => some .rstart
    | .readBurst => some .rstart
    | .init => none
    | .forceStop => none
  | .value => match o with
    | .writeReg => some .stop
    | _ => none
  | .rstart => match o with
    | .readReg => some .slar
    | .readBurst => some .slar
    | _ => none
  | .slar => match o with
    | .readReg => some .rx
    | .readBurst => some .rx
    | _ => none
  | .idle | .rx | .stop | .init => none

/-- R150, column "Then", for the micro-op `k` the current pair selects (for `U_WAIT` when the hold
ends, for `U_CHECK` when it passes).  None where R177 has no entry. -/
def sequel (k : UopKind) (s : State) : Option State :=
  match k with
  | .init => some (respond .ok 0#8 s)
  | .start | .stop | .wbyte | .ack => some (s.setPc s.ph .go)
  | .go => some (if s.ph = .stop then respond .ok s.okCount s else s.setPc s.ph .wait)
  | .wait => some (s.setPc s.ph .stat)
  | .status => some (s.setPc s.ph (if s.ph.isStart then .clr else .chk))
  | .clrStart => some (s.setPc s.ph .chk)
  | .check =>
    if s.ph = .rx then some (s.setPc .rx .data)
    else (nextPhase s.op s.ph).map fun p =>
      (if s.ph = .slar then s.setIdx 0#8 else s).setPc p .cfg
  | .rbyte => some (if s.isLast then s.setPc .stop .cfg
      else (s.setIdx (s.idx + 1#8)).setPc .rx .cfg)

/-- R120, R150: after the micro-op `k`, SEQ moves to the next micro-step.  Where the pair
`(PH, US)` does not select `k` (no step of SEQ's own; notes/assumptions/4.md) the pair stays. -/
def advance (k : UopKind) (s : State) : Outcome :=
  if selected s.ph s.us = some k then
    match sequel k s with
    | some t => .next t
    | none => .refused .unreachableTransition
  else .next s

/-- R150: the micro-op SEQ issues at the pair `(PH, US)`, with its operands (R154, R158, R171). -/
def issue (s : State) : Except Refusal Instr :=
  match selected s.ph s.us with
  | none => .error .noMicroOpHere
  | some .init => .ok (.uInit s.divr)
  | some .start => .ok .uStart
  | some .clrStart => .ok .uClrStart
  | some .stop => .ok .uStop
  | some .go => .ok .uGo
  | some .wait => .ok .uWait
  | some .ack => .ok (.uAck s.ackLevel)
  | some .status => .ok .uStatus
  | some .rbyte => .ok .uRbyte
  | some .wbyte =>
    match s.phaseByte with
    | some b => .ok (.uWbyte b)
    | none => .error .noMicroOpHere
  | some .check =>
    match s.expected, s.errorKind with
    | some e, some k => .ok (.uCheck k.code e)
    | _, _ => .error .unreachableTransition

end Sys2Proof.Machine
end

