-- ==== Sys2Proof/Machine/Check.lean ====
section
/-! DEFINITION. The status check (spec/42_protocol_steps.md R156), the one micro-op that can abort. -/

namespace Sys2Proof.Machine

/-- `U_CHECK` (R156): pass on equality, otherwise `raise err()` (R157). -/
def execUCheck (err : BitVec 4) (expected : Status) (s : State) : Outcome :=
  if s.stLatch = expected then advance .check s
  else match Result.ofErrCode err with
    | some k => .next (raiseError k s)
    | none => .refused .errorCodeOutOfRange

end Sys2Proof.Machine
end

