-- ==== Sys2Proof/Machine/Commands.lean ====
section
/-! DEFINITION. The five host commands (spec/43_transactions.md R170 to R176).  Executing a command
is its acceptance, one atomic step; the transaction it causes is the run of micro-ops that SEQ issues
from the phase the acceptance enters (R150, R177). -/

namespace Sys2Proof.Machine

/-- R170: a command is accepted in `IDLE` unless `gate` refuses it; while `BUSY` it waits and nothing
changes. -/
def accept (gate : Option Refusal) (o : Op) (load : State → State) (s : State) : Outcome :=
  if s.busy then .next s
  else match gate with
    | some r => .refused r
    | none => .next (load (s.setOp o))

/-- R109: `INIT` is refused while `INITIALIZED = 1`. -/
def initGate (s : State) : Option Refusal :=
  if s.initialized then some .alreadyInitialized else none

/-- R109: every other command is refused while `INITIALIZED = 0`. -/
def initializedGate (s : State) : Option Refusal :=
  if s.initialized then none else some .notInitialized

/-- R108, R109: the gate of the commands that carry a device address. -/
def transactionGate (a : Byte) (s : State) : Option Refusal :=
  if validSlaveAddr a then initializedGate s else some .slaveAddressAbove127

/-- `INIT` (R171). -/
def execInit (d : Byte) (s : State) : Outcome :=
  accept (initGate s) .init (fun t => (t.setDivr d).setPc .init .cfg) s

/-- `WRITE_REG` (R172). -/
def execWriteReg (a r v : Byte) (s : State) : Outcome :=
  accept (transactionGate a s) .writeReg
    (fun t => ((t.setTarget (slaOperand a) r).setVal v).setPc .start .cfg) s

/-- `READ_REG` (R173). -/
def execReadReg (a r : Byte) (s : State) : Outcome :=
  accept (transactionGate a s) .readReg
    (fun t => ((t.setTarget (slaOperand a) r).setLen 1#8).setPc .start .cfg) s

/-- `READ_BURST` (R174), with the length validation of R176. -/
def execReadBurst (a r n : Byte) (s : State) : Outcome :=
  accept (transactionGate a s) .readBurst
    (fun t =>
      let u := (t.setTarget (slaOperand a) r).setLen n
      if n = 0#8 then respond .invalidLength 0#8 u else u.setPc .start .cfg) s

/-- `FORCE_STOP` (R175). -/
def execForceStop (s : State) : Outcome :=
  accept (initializedGate s) .forceStop (fun t => t.setPc .stop .cfg) s

end Sys2Proof.Machine
end

