-- ==== Sys2Proof/Machine/Primitives.lean ====
section
/-! DEFINITION. The bus control primitives (spec/40_bus_control_primitives.md R121 to R129). -/

namespace Sys2Proof.Machine

/-- `U_INIT` (R121). -/
def execUInit (d : Byte) (s : State) : Outcome :=
  orRefuse (memWrite CtlReg.br.offset 1 d s) fun s1 =>
    orRefuse (memWrite CtlReg.ctrl.offset 1 initByte s1) fun s2 =>
      advance .init (s2.setInitialized true)

/-- `U_START` (R122). -/
def execUStart (s : State) : Outcome := orRefuse (writeField .start true s) (advance .start)

/-- `U_CLRSTART` (R123). -/
def execUClrStart (s : State) : Outcome := orRefuse (writeField .start false s) (advance .clrStart)

/-- `U_STOP` (R124). -/
def execUStop (s : State) : Outcome := orRefuse (writeField .stop true s) (advance .stop)

/-- `U_GO` (R125). -/
def execUGo (s : State) : Outcome :=
  orRefuse (memRead CtlReg.ctrl.offset 1 s) fun x =>
    orRefuse (memWrite CtlReg.ctrl.offset 1 (goByte x.1) x.2) (advance .go)

/-- `U_WAIT` (R128): while `CTRL.INT` is 0, SEQ stays where it is and nothing changes. -/
def execUWait (s : State) : Outcome :=
  orRefuse (memRead CtlReg.ctrl.offset 1 s) fun x =>
    if ctrlInt x.1 then advance .wait x.2 else .next s

/-- `U_ACK` (R129). -/
def execUAck (e : Bool) (s : State) : Outcome := orRefuse (writeField .ack e s) (advance .ack)

end Sys2Proof.Machine
end

