-- ==== Sys2Proof/Machine/StatusTransfer.lean ====
section
/-! DEFINITION. The status reader and the byte transfer
(spec/41_status_and_byte_transfer.md R140 to R142). -/

namespace Sys2Proof.Machine

/-- `U_STATUS` (R140). -/
def execUStatus (s : State) : Outcome :=
  orRefuse (memRead CtlReg.sr.offset 1 s) fun x =>
    advance .status (x.2.setStLatch (statusOf x.1))

/-- `U_WBYTE` (R141). -/
def execUWbyte (b : Byte) (s : State) : Outcome :=
  orRefuse (memWrite CtlReg.dr.offset 1 b s) (advance .wbyte)

/-- `U_RBYTE` (R142).  An index `BUF` does not have is a fault. -/
def execURbyte (s : State) : Outcome :=
  if s.idx.toNat < Config.maxBurst then
    orRefuse (memRead CtlReg.dr.offset 1 s) fun x =>
      advance .rbyte (x.2.setBuf (x.2.buf.write s.idx.toNat x.1))
  else .fault .bufferIndexOutside

end Sys2Proof.Machine
end

