-- ==== Sys2Proof/Machine/Dispatch.lean ====
section
/-! DEFINITION. One arm per constructor of Instr: the meaning of every row of spec/opcode_table.json. -/

namespace Sys2Proof.Machine

def exec (i : Instr) (s : State) : Host.Outcome State Fault Refusal :=
  match i with
  | .init d => Sys2Proof.Machine.execInit d s
  | .writeReg a r v => Sys2Proof.Machine.execWriteReg a r v s
  | .readReg a r => Sys2Proof.Machine.execReadReg a r s
  | .readBurst a r n => Sys2Proof.Machine.execReadBurst a r n s
  | .forceStop => Sys2Proof.Machine.execForceStop s
  | .uInit d => Sys2Proof.Machine.execUInit d s
  | .uStart => Sys2Proof.Machine.execUStart s
  | .uClrStart => Sys2Proof.Machine.execUClrStart s
  | .uStop => Sys2Proof.Machine.execUStop s
  | .uGo => Sys2Proof.Machine.execUGo s
  | .uWait => Sys2Proof.Machine.execUWait s
  | .uAck e => Sys2Proof.Machine.execUAck e s
  | .uStatus => Sys2Proof.Machine.execUStatus s
  | .uWbyte b => Sys2Proof.Machine.execUWbyte b s
  | .uRbyte => Sys2Proof.Machine.execURbyte s
  | .uCheck k c => Sys2Proof.Machine.execUCheck k c s

end Sys2Proof.Machine
end

