-- ==== Sys2Proof/Machine/Fetch.lean ====
section
/-! DEFINITION. Which instruction SEQ runs next: a command on HOST's port in `IDLE`
(spec/43_transactions.md R170), otherwise the micro-op that `(PH, US)` selects
(spec/42_protocol_steps.md R150); and how a word is put where it is fetched next. -/

namespace Sys2Proof.Machine

/-- What SEQ's next step does. -/
inductive Fetched where
  /-- `PH = IDLE` and no command is offered: SEQ does nothing (R231). -/
  | nothing
  /-- Run `i` from `s`, which is the state with the fetched word taken off its port. -/
  | run (i : Instr) (s : State)
  /-- The word is no instruction, or the sequencer has no row. -/
  | refuse (r : Refusal)
  deriving DecidableEq, Repr

/-- Run a decoded word, or refuse it by name. -/
def runDecoded (d : Except Reject Instr) (s : State) : Fetched :=
  match d with
  | .ok i => .run i s
  | .error e => .refuse (.undecodable e)

/-- SEQ's next instruction. -/
def fetch (s : State) : Fetched :=
  match s.uw with
  | some w => runDecoded (decodeUop w) (s.setUw none)
  | none =>
    if s.ph = .idle then
      match s.cmd with
      | none => .nothing
      | some w => runDecoded (decodeCmd w) (s.setCmd none)
    else match issue s with
      | .ok i => .run i s
      | .error r => .refuse r

/-- The micro-op kind of an instruction; none for the five commands. -/
def kindOf : Instr → Option UopKind
  | .init _ => none
  | .writeReg _ _ _ => none
  | .readReg _ _ => none
  | .readBurst _ _ _ => none
  | .forceStop => none
  | .uInit _ => some .init
  | .uStart => some .start
  | .uClrStart => some .clrStart
  | .uStop => some .stop
  | .uGo => some .go
  | .uWait => some .wait
  | .uAck _ => some .ack
  | .uStatus => some .status
  | .uWbyte _ => some .wbyte
  | .uRbyte => some .rbyte
  | .uCheck _ _ => some .check

/-- A pair `(PH, US)` at which R150 has SEQ run a micro-op of the kind. -/
def homePair : UopKind → Phase × MicroStep
  | .init => (.init, .cfg)
  | .start => (.start, .cfg)
  | .clrStart => (.start, .clr)
  | .stop => (.stop, .cfg)
  | .go => (.start, .go)
  | .wait => (.start, .wait)
  | .ack => (.rx, .cfg)
  | .status => (.start, .stat)
  | .wbyte => (.slaw, .cfg)
  | .rbyte => (.rx, .data)
  | .check => (.start, .chk)

/-- SEQ is where R150 runs a micro-op of the kind: where it is, if that is such a place. -/
def atHome (k : UopKind) (s : State) : State :=
  if selected s.ph s.us = some k then s else s.setPc (homePair k).1 (homePair k).2

/-- `INITIALIZED` as the acceptance of the command asks for it (R109). -/
def initializedFor (d : Except Reject Instr) (s : State) : Bool :=
  match d with
  | .ok (.init _) => false
  | .ok _ => true
  | .error _ => s.initialized

/-- A command word on HOST's port and SEQ ready to accept it (R16, R109, R170). -/
def placeCmd (w : CmdWord) (s : State) : State :=
  (((s.setPc .idle .cfg).setInitialized (initializedFor (decodeCmd w) s)).setUw none).setCmd (some w)

/-- A micro-word in place of the selected one, with SEQ where R150 runs such a micro-op. -/
def placeUop (w : MicroWord) (s : State) : State :=
  match decodeUop w with
  | .ok i => match kindOf i with
    | some k => (atHome k s).setUw (some w)
    | none => s.setUw (some w)
  | .error _ => s.setUw (some w)

/-- The word of a table row of `nbits` bits, put where the next step fetches it, and the next move
SEQ's. -/
def placeWord (s : State) (nbits w : Nat) : State :=
  (if nbits = 32 then placeCmd (BitVec.ofNat 32 w) s
   else if nbits = 16 then placeUop (BitVec.ofNat 16 w) s
   else s).setSchedule (.seq :: s.schedule)

end Sys2Proof.Machine
end

