-- ==== Sys2Proof/Machine/HostPort.lean ====
section
/-! DEFINITION. The two interfaces HOST sees: the command port (spec/00_scope.md R16) and the response
port (R17, spec/30_encoding.md R103, spec/20_memory.md R85). -/

namespace Sys2Proof.Machine

/-- HOST raises `cmd_valid` with a command word (R16).  It offers one command at a time (R224, A2):
while one is on the port HOST has no such move and nothing happens. -/
def offer (w : CmdWord) (s : State) : State :=
  match s.cmd with
  | some _ => s
  | none => s.setCmd (some w)

/-- `cmd_ready` (R16). -/
def State.cmdReady (s : State) : Bool := s.ph == .idle

/-- `rsp_valid` (R17). -/
def State.rspValid (s : State) : Bool := s.resultValid

/-- `rsp_code` (R17, R102). -/
def State.rspCode (s : State) : BitVec 4 := s.result.code

/-- `rsp_count` (R17). -/
def State.rspCount (s : State) : Byte := s.count

/-- `buf_data` for `buf_index = i` (R17, R85): the byte of the response, or any value at an index
not below `COUNT`, while no response is valid, or while `BUSY` (U15). -/
def State.bufData (s : State) (i : Byte) : Byte :=
  if s.resultValid && !s.busy && i.toNat < s.count.toNat then s.buf.read i.toNat
  else Config.freeHostByte s.draws i.toNat

/-- A response as HOST reads it (R103): the code, the count and the bytes. -/
structure Response where
  code : Result
  count : Byte
  bytes : List Byte
  deriving DecidableEq, Repr

/-- R103: the response, present while `RESULT_VALID = 1`. -/
def State.response (s : State) : Option Response :=
  if s.resultValid then
    some ⟨s.result, s.count, (List.range s.count.toNat).map s.buf.read⟩
  else none

end Sys2Proof.Machine
end

