-- ==== Sys2Proof/Machine/Step.lean ====
section
/-! DEFINITION. One step of the machine: the agent whose move comes next makes it
(spec/00_scope.md R8). -/

namespace Sys2Proof.Machine

/-- One step of SEQ: the fetched instruction's meaning. -/
def seqStep (s : State) : Host.Outcome State Fault Refusal :=
  match fetch s with
  | .nothing => .next s
  | .run i t => exec i t
  | .refuse r => .refused r

/-- The move `m`, from the state with that move already taken off the schedule. -/
def makeMove (m : Move) (s : State) : Host.Outcome State Fault Refusal :=
  match m with
  | .seq => seqStep s
  | .complete st d => .next (eComplete st d s)
  | .stopDone => .next (eStopDone s)
  | .offer w => .next (offer w s)
  | .reset => .next (resetEvent s)

/-- One step: the first move of the schedule, or SEQ's when the schedule is empty. -/
def step (s : State) : Host.Outcome State Fault Refusal :=
  match s.schedule with
  | [] => seqStep s
  | m :: ms => makeMove m (s.setSchedule ms)

/-- `s` with the word `w` of a table row of `nbits` bits where the next step fetches and runs it
(notes/assumptions/2.md and 3.md). -/
def State.withFetchWord (s : State) (nbits w : Nat) : State := placeWord s nbits w

end Sys2Proof.Machine
end

