-- ==== Sys2Proof/Machine/RefSlave.lean ====
section
/-! DEFINITION. The reference slave of spec/95_test_vectors.md section 2, a deterministic instance of
CTL's answers: a test double, not normative (D35), used by the claims that need a slave
(spec/43_transactions.md R182).  No step of the machine uses it. -/

namespace Sys2Proof.Machine

/-- `MODE`. -/
inductive SlaveMode where
  | idle | addr | wFirst | w | r | off
  deriving DecidableEq, Repr

/-- The reference slave's state: `A`, `RF[0 .. 127]`, `PTR`, `AI`, `MODE`, `ARM_REQUIRED`. -/
structure RefSlave where
  addr : SlaveAddr
  rf : Memory
  ptr : BitVec 7
  ai : Bool
  mode : SlaveMode
  armRequired : Bool
  deriving DecidableEq, Repr

/-- `inc`: the pointer advances after a byte. -/
def RefSlave.inc (v : RefSlave) : Bool :=
  v.ai && (!v.armRequired || v.rf.read 0x2B == 0x30#8)

/-- The pointer after a byte. -/
def RefSlave.bump (v : RefSlave) : RefSlave := if v.inc then { v with ptr := v.ptr + 1#7 } else v

/-- `RF[PTR]`. -/
def RefSlave.byte (v : RefSlave) : Byte := v.rf.read v.ptr.toNat

/-- The answer to a transmitted byte. -/
def RefSlave.answerTx (v : RefSlave) (b : Byte) : Status × RefSlave :=
  match v.mode with
  | .addr =>
    if b.extractLsb' 1 7 = v.addr then
      if b.getLsbD 0 then (Config.stSlarAck, { v with mode := .r })
      else (Config.stSlawAck, { v with mode := .wFirst })
    else if b.getLsbD 0 then (0x09#5, { v with mode := .off })
    else (0x04#5, { v with mode := .off })
  | .wFirst =>
    (Config.stWriteAck, { v with ptr := b.extractLsb' 0 7, ai := b.getLsbD 7, mode := .w })
  | .w => (Config.stWriteAck, ({ v with rf := v.rf.write v.ptr.toNat b }).bump)
  | .off => (0x06#5, v)
  | .idle => (0x06#5, v)
  | .r => (0x06#5, v)

/-- The status of a received byte, by its acknowledge level. -/
def rxStatus (a : Bool) : Status := if a then Config.stReadAckOk else Config.stReadNackOk

/-- The answer to a receive at acknowledge level `a`. -/
def RefSlave.answerRx (v : RefSlave) (a : Bool) : Status × Byte × RefSlave :=
  match v.mode with
  | .r => (rxStatus a, v.byte, if a then v.bump else { v.bump with mode := .off })
  | .idle => (rxStatus a, 0xFF#8, v)
  | .addr => (rxStatus a, 0xFF#8, v)
  | .wFirst => (rxStatus a, 0xFF#8, v)
  | .w => (rxStatus a, 0xFF#8, v)
  | .off => (rxStatus a, 0xFF#8, v)

/-- The answer to a launched primitive: the `s` and `d` of its `E_COMPLETE`. -/
def RefSlave.answer (v : RefSlave) (p : InFlight) (owned : Bool) : Status × Byte × RefSlave :=
  match p with
  | .start =>
    (if owned then Config.stRstartOk else Config.stStartOk, 0#8, { v with mode := .addr })
  | .tx b => let x := v.answerTx b; (x.1, 0#8, x.2)
  | .rx a => v.answerRx a

/-- The block with the reference slave. -/
structure RefSystem where
  slave : RefSlave
  state : State
  deriving DecidableEq, Repr

/-- The next move of the closed system: CTL takes each step as soon as it is enabled
(95_test_vectors.md section 9), otherwise SEQ steps. -/
def RefSystem.move (y : RefSystem) : Move × RefSlave :=
  match y.state.inflight with
  | some p =>
    if y.state.completeEnabled then
      let x := y.slave.answer p y.state.busOwned
      (.complete x.1 x.2.1, x.2.2)
    else if y.state.stopBusy then (.stopDone, { y.slave with mode := .idle })
    else (.seq, y.slave)
  | none => if y.state.stopBusy then (.stopDone, { y.slave with mode := .idle }) else (.seq, y.slave)

/-- `n` steps of the closed system; none if a step stops. -/
def RefSystem.run : Nat → RefSystem → Option RefSystem
  | 0, y => some y
  | n + 1, y =>
    match step (y.state.setSchedule [y.move.1]) with
    | .next t => RefSystem.run n ⟨y.move.2, t⟩
    | .fault _ => none
    | .refused _ => none

end Sys2Proof.Machine
end

