-- ==== Sys2Proof/Safety.lean ====
section
/-! DEFINITION. What counts as a safe state: the facts that the spec claims of every state SEQ can
reach, as predicates on one state.  Each clause cites the sentence it comes from. -/

namespace Sys2Proof.Machine

/-- The transfer buffer is canonical and lists only indexes `BUF` has (R30). -/
def bufferOk (s : State) : Bool := s.buf.wf && s.buf.bounded

/-- The reserved bits of `CTRL` are 0 (R99, U13). -/
def reservedOk (s : State) : Bool := s.ctrl &&& ~~~ctrlUsedMask == 0#8

/-- R150: the pair `(PH, US)` is `(IDLE, CFG)` or a row of the table. -/
def pcOk (s : State) : Bool :=
  (s.ph == .idle && s.us == .cfg) || (selected s.ph s.us).isSome

/-- R177: the phases each command goes through; `INIT` and `STOP` as R171, R175. -/
def opFitsPhase (o : Op) (p : Phase) : Bool :=
  match p with
  | .idle => true
  | .init => o == .init
  | .start | .slaw | .rega => o == .writeReg || o == .readReg || o == .readBurst
  | .value => o == .writeReg
  | .rstart | .slar | .rx => o == .readReg || o == .readBurst
  | .stop => o != .init

/-- R154, R174: a read that is under way has `LEN >= 1`, and `READ_REG` has `LEN = 1`. -/
def lenOk (s : State) : Bool :=
  s.ph == .idle || ((s.op != .readBurst || s.len != 0#8) && (s.op != .readReg || s.len == 1#8))

/-- R28, R142, R181: in `RX` the index is below `LEN`. -/
def idxOk (s : State) : Bool := s.ph != .rx || decide (s.idx.toNat < s.len.toNat)

/-- R126: `CTRL.START = 1` exactly in the start phases between `U_START` and `U_CLRSTART`; in
particular 0 whenever `PH = IDLE` (R123). -/
def startRequestOk (s : State) : Bool :=
  ctrlField .start s.ctrl ==
    match s.us with
    | .go | .wait | .stat | .clr => s.ph.isStart
    | .cfg | .chk | .data => false

/-- A stop request stands only between `U_STOP` and its launch and while a launched stop is unfinished
(R40, R74, R214). -/
def stopRequestOk (s : State) : Bool :=
  !ctrlField .stop s.ctrl || s.stopBusy || (s.ph == .stop && s.us == .go)

/-- The primitive that a phase has in flight: its kind (R126), the byte the phase stages (R153, R158,
R237), the level of its byte (R154, R159, R240). -/
def phaseLaunches (s : State) : Option InFlight :=
  match s.ph.kind with
  | some .start => some .start
  | some .tx => s.phaseByte.map .tx
  | some .rx => some (.rx s.ackLevel)
  | some .stop => none
  | none => none

/-- R79: nothing is in flight but between a launch and its completion, where SEQ waits and the flag is
0; and what is in flight is what the phase launched. -/
def inflightOk (s : State) : Bool :=
  match s.inflight with
  | none => s.us != .wait || ctrlInt s.ctrl
  | some p => s.us == .wait && !ctrlInt s.ctrl && phaseLaunches s == some p

/-- R237: the byte of a transmit phase is staged before its launch. -/
def stagedOk (s : State) : Bool :=
  s.us != .go || s.ph.kind != some .tx || s.phaseByte == some s.dr

/-- R240: from `U_ACK` on, the level in `RX` is the one of the byte at `IDX`. -/
def levelOk (s : State) : Bool :=
  s.ph != .rx || s.us == .cfg || ctrlField .ack s.ctrl == s.ackLevel

/-- R140, R238, R239: the status and the data are read inside the window. -/
def windowOk (s : State) : Bool :=
  !(s.us == .stat || s.us == .clr || s.us == .chk || s.us == .data) || s.windowOpen

/-- R140, R238: what the check compares is the status of the primitive just completed. -/
def latchOk (s : State) : Bool :=
  !(s.us == .clr || s.us == .chk) || s.stLatch == statusOf s.sr

/-- R109, R233, R235: a transaction is under way, and a primitive has been launched, only after
initialisation; `INIT` only before it.  R121: before it, nothing is requested or in flight. -/
def initOk (s : State) : Bool :=
  (match s.ph with
    | .idle => true
    | .init => !s.initialized
    | .start | .slaw | .rega | .value | .rstart | .slar | .rx | .stop => s.initialized) &&
    (s.initialized || (s.trace == [] && s.ctrl == 0#8 && s.inflight == none && !s.stopBusy)) &&
    (!s.initialized || ctrlField .enable s.ctrl)

/-- R32, R33, R180: no response is shown while `BUSY`, and a response has `COUNT` = `LEN` after a
successful read and 0 otherwise. -/
def responseOk (s : State) : Bool :=
  if s.busy then !s.resultValid
  else !s.resultValid || s.count == (if s.result = .ok then s.okCount else 0#8)

/-- The invariant of SEQ and CTL: every clause above.  `uw = none`: no micro-word is put in place of
SEQ's own (R120: "HOST cannot issue one directly"). -/
def SeqInv (s : State) : Prop :=
  s.uw = none ∧ bufferOk s = true ∧ reservedOk s = true ∧ pcOk s = true ∧
    opFitsPhase s.op s.ph = true ∧ lenOk s = true ∧ idxOk s = true ∧
    startRequestOk s = true ∧ stopRequestOk s = true ∧ inflightOk s = true ∧
    stagedOk s = true ∧ levelOk s = true ∧ windowOk s = true ∧ latchOk s = true ∧
    initOk s = true ∧ responseOk s = true

/-- The refusals with which the block turns a command away (R13, R106 to R109). -/
def Refusal.ofCommand : Refusal → Bool
  | .undecodable _ => true
  | .slaveAddressAbove127 => true
  | .notInitialized => true
  | .alreadyInitialized => true
  | _ => false

/-- SEQ is held in `await_completion` (R128, R226). -/
def State.held (s : State) : Bool := s.us == .wait && !ctrlInt s.ctrl

/-! ## Runs under a schedule -/

/-- `n` steps of the machine. -/
def runFor (n : Nat) (s : State) : Outcome := Sys2Proof.core.run n s

/-- The moves of an awaited phase with `k` micro-steps in which CTL answers `(st, d)`: `CFG` and `GO`,
the completion, then the rest (R150). -/
def phaseMoves (k : Nat) (st : Status) (d : Byte) : List Move :=
  .seq :: .seq :: .complete st d :: List.replicate (k - 2) .seq

/-- A start phase answered `st` (R151, R152). -/
def startMoves (st : Status) : List Move := phaseMoves 6 st 0#8

/-- A transmit phase answered `st` (R153). -/
def txMoves (st : Status) : List Move := phaseMoves 5 st 0#8

/-- A receive phase answered `st` with the byte `d` (R154). -/
def rxMoves (st : Status) (d : Byte) : List Move := phaseMoves 6 st d

/-- The stop phase (R155). -/
def stopMoves : List Move := [.seq, .seq]

/-- The moves of a successful write after its acceptance (R172). -/
def writeMoves : List Move :=
  startMoves Config.stStartOk ++ txMoves Config.stSlawAck ++ txMoves Config.stWriteAck ++
    txMoves Config.stWriteAck ++ stopMoves

/-- The opening of a read up to its first received byte, every answer the expected one (R173). -/
def readOpening : List Move :=
  startMoves Config.stStartOk ++ txMoves Config.stSlawAck ++ txMoves Config.stWriteAck ++
    startMoves Config.stRstartOk ++ txMoves Config.stSlarAck

/-- The receive phases of the bytes `ds`, all acknowledged but the last (R174). -/
def receiveMoves : List Byte → List Move
  | [] => []
  | [d] => rxMoves Config.stReadNackOk d
  | d :: ds => rxMoves Config.stReadAckOk d ++ receiveMoves ds

/-- The moves of a successful read of the bytes `ds` after its acceptance (R173, R174). -/
def readMoves (ds : List Byte) : List Move := readOpening ++ receiveMoves ds ++ stopMoves

/-- The trace entries of the receives of `n` bytes: `n - 1` acknowledged, the last one not (R159). -/
def receiveTrace (n : Nat) : List TraceEntry := List.replicate (n - 1) (.rx true) ++ [.rx false]

/-- The trace of a read whose register-address byte is `rb` (R173, R174). -/
def readTrace (sla : SlaveAddr) (rb : Byte) (n : Nat) : List TraceEntry :=
  [.start, .tx (slaByte sla Config.dirWrite), .tx rb, .start, .tx (slaByte sla Config.dirRead)] ++
    receiveTrace n ++ [.stop]

/-! ## A start launched while an earlier stop is unfinished (R75, R245; vector Z5) -/

/-- Completions that CTL tries, one after another. -/
def completionMoves (early : List (Status × Byte)) : List Move :=
  early.map fun x => .complete x.1 x.2

/-- From the launch of a start to the end of the stop that holds it back: CTL tries the completions
`early`, none of which is enabled (R75), and then ends the stop (R74). -/
def waitForStop (early : List (Status × Byte)) : List Move := completionMoves early ++ [.stopDone]

/-- The acceptance, `U_START` and `U_GO` of a transaction, and the end of the earlier stop. -/
def backToBack (early : List (Status × Byte)) : List Move :=
  [.seq, .seq, .seq] ++ waitForStop early

/-- The moves of a transaction after the launch of its opening start: the first two micro-steps are
those of `CFG` and `GO`. -/
def afterLaunch (moves : List Move) : List Move := moves.drop 2

/-- The transaction commands that launch an opening start (R170, R172 to R174). -/
def launchesStart : Instr → Bool
  | .writeReg a _ _ => validSlaveAddr a
  | .readReg a _ => validSlaveAddr a
  | .readBurst a _ n => validSlaveAddr a && n != 0#8
  | .init _ => false
  | .forceStop => false
  | .uInit _ => false
  | .uStart => false
  | .uClrStart => false
  | .uStop => false
  | .uGo => false
  | .uWait => false
  | .uAck _ => false
  | .uStatus => false
  | .uWbyte _ => false
  | .uRbyte => false
  | .uCheck _ _ => false

/-! ## A controller that answers everything: `ENV_LIVE` (R78) -/

/-- A controller that takes each of its steps as soon as it is enabled, with answers `ans` that may
depend on the state in any way (R77, R78), SEQ stepping otherwise. -/
def liveMove (ans : State → Status × Byte) (s : State) : Move :=
  if s.completeEnabled then .complete (ans s).1 (ans s).2
  else if s.stopBusy then .stopDone
  else .seq

/-- `n` steps under that controller. -/
def liveRun (ans : State → Status × Byte) : Nat → State → Outcome
  | 0, s => .next s
  | n + 1, s =>
    match step (s.setSchedule [liveMove ans s]) with
    | .next t => liveRun ans n t
    | .fault f => .fault f
    | .refused r => .refused r

/-! ## What one write does to a control byte, bit by bit (R64, R99) -/

/-- `d` is `c` with bit `pos` at `b`, the reserved bits 3, 1 and 0 at 0, and every other bit, `INT`
(bit 7) among them, as in `c`. -/
def FieldSet (pos : Nat) (b : Bool) (c d : Byte) : Prop :=
  ∀ i, i < 8 → d.getLsbD i =
    if i = pos then b else if i = 3 ∨ i = 1 ∨ i = 0 then false else c.getLsbD i

/-- SEQ is idle and initialised, no micro-word stands in its place, and HOST offers `i`. -/
def Offers (i : Instr) (s : State) : Prop :=
  s.uw = none ∧ s.ph = .idle ∧ s.initialized = true ∧
    (∃ w, encode i = .cmd w ∧ s.cmd = some w)

/-- The trace entry of the primitive a phase launches (R158). -/
def phaseEntry (s : State) : Option TraceEntry :=
  match s.ph.kind with
  | some .start => some .start
  | some .tx => s.phaseByte.map .tx
  | some .rx => some (.rx s.ackLevel)
  | some .stop => some .stop
  | none => none

/-- The instruction SEQ's next step runs, if any. -/
def nextInstr (s : State) : Option Instr :=
  match fetch s with
  | .run i _ => some i
  | .nothing => none
  | .refuse _ => none

/-- The next step is SEQ's. -/
def seqMovesNext (s : State) : Bool := s.schedule == [] || s.schedule.head? == some .seq

end Sys2Proof.Machine
end

