-- ==== Sys2Proof/Certificates/Slice0/Obligations.lean ====
section
/-! DEFINITION. The statements for the provers.  Where a docstring says "the model's", the clause rests
on a log entry of notes/assumptions, not on a rule of the spec. -/

open Sys2Proof Sys2Proof.Machine

/-! ## Encodings -/

/-- R92, R94, R97, R98: every well-formed instruction, at every operand, is what its word decodes to. -/
def Obligations.DecodeOfEncodeIsIdentity : Prop :=
  ∀ i : Instr, i.wf = true → decode (encode i) = .ok i

/-- R92, R94, R107: a command word that decodes has one spelling, the encoder's: no bit is ignored.
That the same holds of micro-words (no unused bit of `aux` or `imm` is ignored) is the model's inference
from the table's masks (DEDUCED: notes/assumptions/11.md). -/
def Obligations.EncodeOfDecodeIsIdentity : Prop :=
  ∀ (w : EncodedWord) (i : Instr), decode w = .ok i → encode i = w

/-- R94, R106, R107, R108, R111, R112: a word is an instruction exactly when a row of the opcode table
selects it, `w & mask == match`, and then every row that selects it has that instruction's mnemonic.
(R94 states it for the commands; that the rows of micro-ops are read by the same rule is the model's
inference, DEDUCED: notes/assumptions/11.md.) -/
def Obligations.DecoderFollowsOpcodeTable : Prop :=
  ∀ w : EncodedWord,
    ((∃ i, decode w = .ok i) ↔ ∃ r ∈ opcodeTable, r.selects w = true) ∧
      ∀ i, decode w = .ok i → ∀ r ∈ opcodeTable, r.selects w = true → r.mnemonic = i.mnemonic

/-- Words of spec/95_test_vectors.md section 3 (N1, N4, N8, N10, N13, N30, N36, N38, N42). -/
def Obligations.WrittenWordsDecode : Prop :=
  decode (.cmd 0x0000000A#32) = .ok (.init 0x0A#8) ∧
  decode (.cmd 0x20682B30#32) = .ok (.writeReg 0x68#8 0x2B#8 0x30#8) ∧
  decode (.cmd 0x40680000#32) = .ok (.readReg 0x68#8 0x00#8) ∧
  decode (.cmd 0x60683304#32) = .ok (.readBurst 0x68#8 0x33#8 0x04#8) ∧
  decode (.cmd 0x80000000#32) = .ok .forceStop ∧
  decode (.uop 0x000A#16) = .ok (.uInit 0x0A#8) ∧
  decode (.uop 0x6100#16) = .ok (.uAck true) ∧
  decode (.uop 0x80D0#16) = .ok (.uWbyte 0xD0#8) ∧
  decode (.uop 0xA303#16) = .ok (.uCheck 3#4 0x03#5)

/-- R106, R107, R108: in `IDLE` a command word with a reserved code, with a non-zero reserved or
unused field, or with a device address of 128 or more is refused: there is no next state. -/
def Obligations.MalformedCommandsAreRefused : Prop :=
  ∀ (s : State) (w : CmdWord),
    s.uw = none → s.ph = .idle → s.cmd = some w → seqMovesNext s = true →
    (5 ≤ (cmdOp w).toNat ∨
      cmdRsv w ≠ 0#5 ∨
      (cmdOp w = 0#3 ∧ (cmdA w ≠ 0#8 ∨ cmdR w ≠ 0#8)) ∨
      (cmdOp w = 2#3 ∧ cmdX w ≠ 0#8) ∨
      (cmdOp w = 4#3 ∧ (cmdA w ≠ 0#8 ∨ cmdR w ≠ 0#8 ∨ cmdX w ≠ 0#8)) ∨
      ((cmdOp w = 1#3 ∨ cmdOp w = 2#3 ∨ cmdOp w = 3#3) ∧ 128 ≤ (cmdA w).toNat)) →
    ∃ why, step s = .refused (.undecodable why)

/-- R95: the address byte is the 7-bit address with the direction flag in bit 0. -/
def Obligations.AddressByteIsAddressThenDirection : Prop :=
  ∀ (a : SlaveAddr),
    (slaByte a Config.dirWrite).toNat = 2 * a.toNat ∧
    (slaByte a Config.dirRead).toNat = 2 * a.toNat + 1

/-- R96: the register-address byte is `REG` as given for a write and a single read, and `REG` with its
top bit set for a burst; where `REG` has that bit already the burst sends `REG`, and is accepted. -/
def Obligations.BurstSetsTopBitOfRegisterByte : Prop :=
  ∀ (r : Byte),
    regAddrByte .writeReg r = r ∧ regAddrByte .readReg r = r ∧
    (regAddrByte .readBurst r).getLsbD 7 = true ∧
    (∀ i, i < 7 → (regAddrByte .readBurst r).getLsbD i = r.getLsbD i) ∧
    (r.getLsbD 7 = true →
      regAddrByte .readBurst r = r ∧
      ∀ (a n : Byte) (s : State), s.ph = .idle → s.initialized = true → a.toNat < 128 → n ≠ 0#8 →
        ∃ t, exec (.readBurst a r n) s = .next t ∧ t.ph = .start ∧ t.reg = r)

/-! ## A step runs the fetched instruction -/

/-- R150, R170: a step of SEQ runs the decoded command in `IDLE`, and the micro-op the pair selects
otherwise.  The last clause is the model's own (notes/assumptions/3.md): a micro-word put in place. -/
def Obligations.StepRunsDecodedInstruction : Prop :=
  ∀ (s : State) (i : Instr), seqMovesNext s = true →
    (∀ w, s.uw = none → s.ph = .idle → s.cmd = some w → decode (.cmd w) = .ok i →
      step s = exec i ((s.setSchedule s.schedule.tail).setCmd none)) ∧
    (s.uw = none → s.ph ≠ .idle → issue s = .ok i →
      step s = exec i (s.setSchedule s.schedule.tail) ∧ i.wf = true) ∧
    (∀ w, s.uw = some w → decode (.uop w) = .ok i →
      step s = exec i ((s.setSchedule s.schedule.tail).setUw none))

/-- The model's own interface (notes/assumptions/2.md, 3.md): the word of a table row is run by the
very next step, from the state with the word taken off its port again. -/
def Obligations.PlacedWordRunsNext : Prop :=
  ∀ (s : State) (nbits w : Nat) (i : Instr), decodeTableWord nbits w = some i →
    step (s.withFetchWord nbits w) =
      exec i (((s.withFetchWord nbits w).setSchedule s.schedule).setUw none
        |>.setCmd (if nbits = 32 then none else s.cmd))

/-- R231: "SEQ does nothing until HOST offers a command." -/
def Obligations.IdleWithoutCommandDoesNothing : Prop :=
  ∀ s : State, s.uw = none → s.ph = .idle → s.cmd = none → s.schedule = [] → step s = .next s

/-! ## Acceptance (R170) -/

/-- R170: the acceptance of `INIT`. -/
def Obligations.InitAcceptance : Prop :=
  ∀ (d : Byte) (s : State), s.ph = .idle → s.initialized = false →
    exec (.init d) s =
      .next { s with resultValid := false, op := .init, divr := d, ph := .init, us := .cfg }

/-- R170: the acceptance of the transaction commands copies the operands, clears `RESULT_VALID` and
enters phase `START`; nothing else changes. -/
def Obligations.TransactionAcceptance : Prop :=
  ∀ (a r x : Byte) (s : State), s.ph = .idle → s.initialized = true → a.toNat < 128 →
    exec (.writeReg a r x) s =
      .next { s with
        resultValid := false, op := .writeReg, sla := a.setWidth 7, reg := r, val := x
        ph := .start, us := .cfg } ∧
    exec (.readReg a r) s =
      .next { s with
        resultValid := false, op := .readReg, sla := a.setWidth 7, reg := r, len := 1#8
        ph := .start, us := .cfg } ∧
    (x ≠ 0#8 →
      exec (.readBurst a r x) s =
        .next { s with
          resultValid := false, op := .readBurst, sla := a.setWidth 7, reg := r, len := x
          ph := .start, us := .cfg })

/-- R176: a burst of length 0 is answered `InvalidLength` at acceptance: `PH` stays `IDLE`, no
controller register and no byte of `BUF` changes, nothing is launched. -/
def Obligations.ZeroLengthBurstAnswersInvalidLength : Prop :=
  ∀ (a r : Byte) (s : State), s.ph = .idle → s.initialized = true → a.toNat < 128 →
    exec (.readBurst a r 0#8) s =
      .next { s with
        op := .readBurst, sla := a.setWidth 7, reg := r, len := 0#8
        result := .invalidLength, count := 0#8, resultValid := true, ph := .idle, us := .cfg }

/-- R170, R175: the acceptance of `FORCE_STOP`. -/
def Obligations.ForceStopAcceptance : Prop :=
  ∀ s : State, s.ph = .idle → s.initialized = true →
    exec .forceStop s =
      .next { s with resultValid := false, op := .forceStop, ph := .stop, us := .cfg }

/-- R109: every command but `INIT` before initialisation, and `INIT` after it, is refused. -/
def Obligations.InitialisationGateRefuses : Prop :=
  ∀ (a r x : Byte) (s : State), s.ph = .idle → a.toNat < 128 →
    (s.initialized = false →
      exec (.writeReg a r x) s = .refused .notInitialized ∧
      exec (.readReg a r) s = .refused .notInitialized ∧
      exec (.readBurst a r x) s = .refused .notInitialized ∧
      exec .forceStop s = .refused .notInitialized) ∧
    (s.initialized = true → exec (.init x) s = .refused .alreadyInitialized)

/-- R108: a command whose `slave_addr` is 128 or more is refused.  With `INITIALIZED = 0` the ground of
R109 holds as well; that the name of the refusal is then the one of R108 is the model's order of the
grounds (DESIGN CHOICE: notes/assumptions/12.md). -/
def Obligations.DeviceAddressAbove127IsRefused : Prop :=
  ∀ (a r x : Byte) (s : State), s.ph = .idle → 128 ≤ a.toNat →
    exec (.writeReg a r x) s = .refused .slaveAddressAbove127 ∧
    exec (.readReg a r) s = .refused .slaveAddressAbove127 ∧
    exec (.readBurst a r x) s = .refused .slaveAddressAbove127

/-- R35, R170: while `BUSY` no command is accepted; the command HOST offers waits on its port.
The four `exec` clauses are the model's: no step executes a command while `BUSY`, and that `exec` of one
answers the state unchanged there is its rendering of "waits" (DESIGN CHOICE: notes/assumptions/12.md). -/
def Obligations.CommandsWaitWhileBusy : Prop :=
  ∀ (s t : State), s.uw = none → s.ph ≠ .idle → step s = .next t →
    (∀ w, s.cmd = some w → t.cmd = some w) ∧
    (∀ d, exec (.init d) s = .next s) ∧
    (∀ a r x, exec (.writeReg a r x) s = .next s ∧ exec (.readReg a r) s = .next s ∧
      exec (.readBurst a r x) s = .next s) ∧
    exec .forceStop s = .next s

/-! ## Micro-operations: result, completion and frame in one equation each

`t = { s with f := t.f, … }` says that `t` differs from `s` in the named fields at most. -/

/-- R121: `U_INIT` writes `BR`, puts `CTRL` to `0x44` with the flag as it was, sets `INITIALIZED`, and
launches nothing; in phase `INIT` the command is answered `Ok` (R150).  That the pair stays where it
does not select `U_INIT` is the model's (DESIGN CHOICE: notes/assumptions/4.md). -/
def Obligations.InitConfiguresController : Prop :=
  ∀ (d : Byte) (s : State), ∃ t, exec (.uInit d) s = .next t ∧
    t.br = d ∧ t.ctrl = (0x44#8 ||| (s.ctrl &&& 0x80#8)) ∧ t.initialized = true ∧
    (s.ph = .init → s.us = .cfg →
      t.ph = .idle ∧ t.us = .cfg ∧ t.result = .ok ∧ t.count = 0#8 ∧ t.resultValid = true) ∧
    (selected s.ph s.us ≠ some .init →
      t = { s with br := t.br, ctrl := t.ctrl, initialized := t.initialized }) ∧
    t = { s with
      br := t.br, ctrl := t.ctrl, initialized := t.initialized, ph := t.ph, us := t.us
      result := t.result, count := t.count, resultValid := t.resultValid }

/-- R122: `U_START` sets `CTRL.START` and nothing else of the machine; it launches nothing. -/
def Obligations.StartRequestSetsStartBit : Prop :=
  ∀ s : State, ∃ t, exec .uStart s = .next t ∧
    FieldSet 5 true s.ctrl t.ctrl ∧
    (selected s.ph s.us = some .start → t.ph = s.ph ∧ t.us = .go) ∧
    t = { s with ctrl := t.ctrl, ph := t.ph, us := t.us }

/-- R123: `U_CLRSTART` clears `CTRL.START`, the completion flag stays as it is. -/
def Obligations.ClearStartClearsStartBit : Prop :=
  ∀ s : State, ∃ t, exec .uClrStart s = .next t ∧
    FieldSet 5 false s.ctrl t.ctrl ∧
    (selected s.ph s.us = some .clrStart → t.ph = s.ph ∧ t.us = .chk) ∧
    t = { s with ctrl := t.ctrl, ph := t.ph, us := t.us }

/-- R124: `U_STOP` sets `CTRL.STOP`. -/
def Obligations.StopRequestSetsStopBit : Prop :=
  ∀ s : State, ∃ t, exec .uStop s = .next t ∧
    FieldSet 4 true s.ctrl t.ctrl ∧
    (selected s.ph s.us = some .stop → t.ph = s.ph ∧ t.us = .go) ∧
    t = { s with ctrl := t.ctrl, ph := t.ph, us := t.us }

/-- R129, R76: `U_ACK` sets the level; a receive already in flight keeps the level it was launched
with. -/
def Obligations.AckSetsLevelForNextLaunch : Prop :=
  ∀ (e : Bool) (s : State), ∃ t, exec (.uAck e) s = .next t ∧
    FieldSet 6 e s.ctrl t.ctrl ∧ t.inflight = s.inflight ∧
    (selected s.ph s.us = some .ack → t.ph = s.ph ∧ t.us = .go) ∧
    t = { s with ctrl := t.ctrl, ph := t.ph, us := t.us }

/-- R125, R126, R72: `U_GO` clears the flag, keeps the fields, writes the reserved bits 0, appends
exactly the phase's entry to `TRACE` and hands CTL exactly the phase's primitive.  R150, R155: what
follows at `GO`.  The last clause, that at another micro-step the pair stays, is the model's (DESIGN
CHOICE: notes/assumptions/4.md). -/
def Obligations.GoLaunchesPhasePrimitive : Prop :=
  ∀ (s : State), s.ph ≠ .idle → s.ph ≠ .init → ∃ t, exec .uGo s = .next t ∧
    t.ctrl = s.ctrl &&& 0x74#8 ∧
    (s.ph = .start ∨ s.ph = .rstart →
      t.trace = s.trace ++ [.start] ∧ t.inflight = some .start ∧ t.stopBusy = s.stopBusy) ∧
    (s.ph = .slaw ∨ s.ph = .rega ∨ s.ph = .value ∨ s.ph = .slar →
      t.trace = s.trace ++ [.tx s.dr] ∧ t.inflight = some (.tx s.dr) ∧ t.stopBusy = s.stopBusy) ∧
    (s.ph = .rx →
      t.trace = s.trace ++ [.rx (s.ctrl.getLsbD 6)] ∧
      t.inflight = some (.rx (s.ctrl.getLsbD 6)) ∧ t.stopBusy = s.stopBusy) ∧
    (s.ph = .stop →
      t.trace = s.trace ++ [.stop] ∧ t.inflight = s.inflight ∧ t.stopBusy = true) ∧
    (s.us = .go → s.ph ≠ .stop →
      t = { s with
        ctrl := t.ctrl, trace := t.trace, inflight := t.inflight, us := .wait }) ∧
    (s.us = .go → s.ph = .stop →
      t = { s with
        ctrl := t.ctrl, trace := t.trace, stopBusy := true, ph := .idle, us := .cfg
        result := .ok, resultValid := true
        count := if s.op = .readReg ∨ s.op = .readBurst then s.len else 0#8 }) ∧
    (s.us ≠ .go →
      t = { s with
        ctrl := t.ctrl, trace := t.trace, inflight := t.inflight, stopBusy := t.stopBusy })

/-- R126: "`U_GO` is never executed in `IDLE` or `INIT`"; that it is refused there is the model's (DESIGN
CHOICE: notes/assumptions/13.md). -/
def Obligations.GoHasNoPrimitiveInIdleOrInit : Prop :=
  ∀ s : State, s.ph = .idle ∨ s.ph = .init → exec .uGo s = .refused .noPrimitiveInPhase

/-- R128: while the flag is 0 SEQ changes no state; when it is 1 SEQ goes on to the status (R150).  The
third clause, that at a pair that does not select `U_WAIT` nothing changes, is the model's (DESIGN
CHOICE: notes/assumptions/4.md). -/
def Obligations.WaitHoldsUntilFlag : Prop :=
  ∀ s : State,
    (s.ctrl.getLsbD 7 = false → exec .uWait s = .next s) ∧
    (s.ctrl.getLsbD 7 = true → selected s.ph s.us = some .wait →
      exec .uWait s = .next { s with us := .stat }) ∧
    (s.ctrl.getLsbD 7 = true → selected s.ph s.us ≠ some .wait → exec .uWait s = .next s)

/-- R140: inside the window `U_STATUS` latches `SR[7:3]`, whatever `SR[2:0]` hold, with no side effect.
R66: outside it the latch takes any value, and still nothing else changes (but the count of draws,
the model's own). -/
def Obligations.StatusLatchesFiveBits : Prop :=
  ∀ s : State, ∃ t, exec .uStatus s = .next t ∧
    (s.ctrl.getLsbD 7 = true →
      (∀ i, i < 5 → t.stLatch.getLsbD i = s.sr.getLsbD (i + 3)) ∧ t.draws = s.draws) ∧
    (selected s.ph s.us = some .status →
      t.ph = s.ph ∧ t.us = if s.ph = .start ∨ s.ph = .rstart then .clr else .chk) ∧
    t = { s with stLatch := t.stLatch, draws := t.draws, ph := t.ph, us := t.us }

/-- R141: `U_WBYTE` puts the byte in `DR`; it launches nothing and a byte in flight is not changed. -/
def Obligations.WriteByteStagesData : Prop :=
  ∀ (b : Byte) (s : State), ∃ t, exec (.uWbyte b) s = .next t ∧
    t.dr = b ∧ t.inflight = s.inflight ∧ t.trace = s.trace ∧
    (selected s.ph s.us = some .wbyte → t.ph = s.ph ∧ t.us = .go) ∧
    t = { s with dr := b, ph := t.ph, us := t.us }

/-- R142: inside the window `U_RBYTE` stores `DR` at `BUF[IDX]` and leaves every other byte of the
buffer and `DR` alone; R150: then the next byte's step or the stop.  The clause for a pair that does
not select `U_RBYTE` is the model's (DESIGN CHOICE: notes/assumptions/4.md). -/
def Obligations.ReadByteStoresAtIndex : Prop :=
  ∀ s : State, s.buf.wf = true → s.idx.toNat < 255 → ∃ t, exec .uRbyte s = .next t ∧
    (s.ctrl.getLsbD 7 = true → t.buf.read s.idx.toNat = s.dr ∧ t.draws = s.draws) ∧
    (∀ j, j ≠ s.idx.toNat → t.buf.read j = s.buf.read j) ∧
    t.buf.wf = true ∧
    (selected s.ph s.us = some .rbyte →
      (s.idx.toNat + 1 = s.len.toNat → t.ph = .stop ∧ t.us = .cfg ∧ t.idx = s.idx) ∧
      (s.idx.toNat + 1 < s.len.toNat →
        t.ph = .rx ∧ t.us = .cfg ∧ t.idx.toNat = s.idx.toNat + 1)) ∧
    (selected s.ph s.us ≠ some .rbyte → t = { s with buf := t.buf, draws := t.draws }) ∧
    t = { s with buf := t.buf, draws := t.draws, idx := t.idx, ph := t.ph, us := t.us }

/-- R30, R50: `BUF` has no index 255: there `U_RBYTE` stops with a fault (the model's, DESIGN
CHOICE: notes/assumptions/8.md). -/
def Obligations.ReadByteFaultsOutsideBuffer : Prop :=
  ∀ s : State, s.idx.toNat = 255 → exec .uRbyte s = .fault .bufferIndexOutside

/-- R156, R177: a check that passes writes no flag and no controller register; SEQ goes to the next
phase (leaving `SLAR`, `IDX` becomes 0), or in `RX` to the byte.  Two things are the model's: the
clause for a pair that does not select `U_CHECK` (DESIGN CHOICE: notes/assumptions/4.md), and that an
`err` that is no code 1 to 8 passes too (DESIGN CHOICE: notes/assumptions/13.md). -/
def Obligations.CheckPassesOnEquality : Prop :=
  ∀ (k : BitVec 4) (e : Status) (s : State), s.stLatch = e →
    (∀ p, selected s.ph s.us = some .check → nextPhase s.op s.ph = some p →
      exec (.uCheck k e) s =
        .next { s with ph := p, us := .cfg, idx := if s.ph = .slar then 0#8 else s.idx }) ∧
    (s.ph = .rx → s.us = .chk → exec (.uCheck k e) s = .next { s with us := .data }) ∧
    (selected s.ph s.us ≠ some .check → exec (.uCheck k e) s = .next s)

/-- R156, R157, R214: on any other status the check answers `err` with no bytes and returns to `IDLE`;
every register, the controller's registers, `BUF` and `TRACE` are unchanged.  CTL's hidden state
(`BUS_OWNED`, the slave) is unconstrained (R80). -/
def Obligations.CheckAbortsOnMismatch : Prop :=
  ∀ (k : BitVec 4) (e : Status) (s : State), 1 ≤ k.toNat → k.toNat ≤ 8 → s.stLatch ≠ e →
    ∃ t, exec (.uCheck k e) s = .next t ∧
      t.result.code = k ∧ t.count = 0#8 ∧ t.resultValid = true ∧ t.ph = .idle ∧ t.us = .cfg ∧
      t = { s with
        result := t.result, count := t.count, resultValid := t.resultValid, ph := t.ph, us := t.us
        busOwned := t.busOwned, slave := t.slave, draws := t.draws }

/-- R61: a controller access that is not one byte wide, or not at one of the four offsets of R60, has
no meaning.  R60: `CTRL`, `SR` and `DR` are read, `CTRL`, `DR` and `BR` are written.  That a read of `BR`
and a write of `SR` are refused is the model's inference from R60's column Access (DEDUCED:
notes/assumptions/20.md). -/
def Obligations.ControllerAccessesAreBytesToFourRegisters : Prop :=
  ∀ (a n : Nat) (v : Byte) (s : State),
    (n ≠ 1 ∨ 4 ≤ a → (∃ r, memRead a n s = .error r) ∧ ∃ r, memWrite a n v s = .error r) ∧
    (∃ c t, memRead 0 1 s = .ok (c, t)) ∧ (∃ c t, memRead 1 1 s = .ok (c, t)) ∧
    (∃ c t, memRead 2 1 s = .ok (c, t)) ∧ (∃ r, memRead 3 1 s = .error r) ∧
    (v.getLsbD 7 = false → ∃ t, memWrite 0 1 v s = .ok t ∧ t.trace = s.trace) ∧
    (∃ r, memWrite 1 1 v s = .error r) ∧
    memWrite 2 1 v s = .ok { s with dr := v } ∧ memWrite 3 1 v s = .ok { s with br := v }

/-! ## The controller, the reset event, the ports -/

/-- R73, R75: the completion of the primitive in flight, for every status and byte; with nothing in
flight, or with a START in flight while a stop is unfinished, CTL has no completion and nothing
changes (that a move without a step leaves the state alone is the model's, DESIGN CHOICE:
notes/assumptions/1.md). -/
def Obligations.CompletionWritesStatusAndFlag : Prop :=
  ∀ (s : State) (st : Status) (d : Byte) (ms : List Move), s.schedule = .complete st d :: ms →
    (∀ p, s.inflight = some p → (p = .start → s.stopBusy = false) →
      ∃ t, step s = .next t ∧
        (∀ i, i < 5 → t.sr.getLsbD (i + 3) = st.getLsbD i) ∧
        t.ctrl = s.ctrl ||| 0x80#8 ∧ t.inflight = none ∧
        (∀ a, p = .rx a → t.dr = d) ∧
        (p = .start ∧ (st = Config.stStartOk ∨ st = Config.stRstartOk) → t.busOwned = true) ∧
        (¬ (p = .start ∧ (st = Config.stStartOk ∨ st = Config.stRstartOk)) →
          t.busOwned = s.busOwned) ∧
        t = { s with
          schedule := ms, sr := t.sr, ctrl := t.ctrl, dr := t.dr, inflight := t.inflight
          busOwned := t.busOwned, slave := t.slave, draws := t.draws }) ∧
    (s.inflight = none ∨ (s.inflight = some .start ∧ s.stopBusy = true) →
      step s = .next { s with schedule := ms })

/-- R74: the end of a stop clears the request, sets no flag, and writes neither `SR` nor `DR`.  The
second clause, that with no stop unfinished the move changes nothing, is the model's (DESIGN CHOICE:
notes/assumptions/1.md). -/
def Obligations.StopDoneReleasesBus : Prop :=
  ∀ (s : State) (ms : List Move), s.schedule = .stopDone :: ms →
    (s.stopBusy = true → ∃ t, step s = .next t ∧
      t.ctrl = s.ctrl &&& 0xEF#8 ∧
      t = { s with
        schedule := ms, ctrl := t.ctrl, stopBusy := false, busOwned := false
        slave := t.slave, draws := t.draws }) ∧
    (s.stopBusy = false → step s = .next { s with schedule := ms })

/-- R49, R230: reset may occur in any state and puts every register for which R49 gives a value to it;
no response is given. -/
def Obligations.ResetFromAnyState : Prop :=
  ∀ (s : State) (ms : List Move), s.schedule = .reset :: ms →
    ∃ t, step s = .next t ∧
      t.ph = .idle ∧ t.us = .cfg ∧ t.resultValid = false ∧ t.count = 0#8 ∧
      t.initialized = false ∧ t.ctrl = 0x00#8 ∧ t.br = 0#8 ∧ t.inflight = none ∧
      t.stopBusy = false ∧ t.busOwned = false ∧ t.trace = []

/-- R103, R180, R224: the response HOST reads stays as it is until the next acceptance or reset:
neither CTL's moves nor HOST's offer nor SEQ's idle step changes it. -/
def Obligations.ResponseStaysUntilNextCommand : Prop :=
  ∀ (s t : State), s.uw = none → s.ph = .idle → s.resultValid = true →
    (s.cmd = none ∨ seqMovesNext s = false) → s.schedule.head? ≠ some .reset →
    step s = .next t → t.response = s.response ∧ t.ph = .idle

/-! ## Invariants and whole-machine rules -/

/-- The invariant holds after reset. -/
def Obligations.ResetStateIsSafe : Prop := SeqInv State.reset

/-- The invariant of SEQ and CTL is kept by every step from every state that has it, whichever agent
moves and whatever it answers. -/
def Obligations.EveryStepKeepsSequencerInvariant : Prop :=
  ∀ (s t : State), SeqInv s → step s = .next t → SeqInv t

/-- From a state with the invariant no step faults, and a step is refused only where HOST's command is
turned away in `IDLE` (R13, R106 to R109). -/
def Obligations.SafeStatesStopOnlyOnRefusedCommands : Prop :=
  ∀ s : State, SeqInv s →
    (∃ t, step s = .next t) ∨
    (∃ r, step s = .refused r ∧ r.ofCommand = true ∧ s.ph = .idle ∧ s.cmd ≠ none)

/-- The transfer buffer keeps its canonical form and its bound in every step from every state (no
other invariant is needed). -/
def Obligations.EveryStepKeepsBufferCanonical : Prop :=
  ∀ (s t : State), bufferOk s = true → step s = .next t → bufferOk t = true

/-- R44, R125: a step appends exactly one entry to `TRACE` when SEQ runs `U_GO`, and otherwise leaves
it alone, but for reset, which empties it. -/
def Obligations.TraceGrowsOnlyByGo : Prop :=
  ∀ (s t : State), step s = .next t → s.schedule.head? ≠ some .reset →
    (seqMovesNext s = true ∧ nextInstr s = some .uGo → ∃ e, t.trace = s.trace ++ [e]) ∧
    (¬ (seqMovesNext s = true ∧ nextInstr s = some .uGo) → t.trace = s.trace)

/-- R34: `INITIALIZED` is cleared only by reset and set only by `U_INIT`. -/
def Obligations.InitializedChangesOnlyByInitOrReset : Prop :=
  ∀ (s t : State), step s = .next t → s.schedule.head? ≠ some .reset →
    (s.initialized = true → t.initialized = true) ∧
    (s.initialized = false → t.initialized = true →
      seqMovesNext s = true ∧ ∃ d, nextInstr s = some (.uInit d))

/-- R30, R85: a byte of `BUF` changes only when SEQ runs `U_RBYTE`, and then only the one at `IDX`;
in a state with the invariant this happens only in phase `RX`. -/
def Obligations.BufferWrittenOnlyByReadByte : Prop :=
  ∀ (s t : State) (j : Nat), step s = .next t → s.schedule.head? ≠ some .reset →
    t.buf.read j ≠ s.buf.read j →
    seqMovesNext s = true ∧ nextInstr s = some .uRbyte ∧ j = s.idx.toNat ∧ (SeqInv s → s.ph = .rx)

/-- R31, R180, R224: a command that has been accepted ends only with a response: when a step takes SEQ
from `BUSY` to `IDLE`, other than by reset, `RESULT_VALID` becomes 1, and an error delivers no byte. -/
def Obligations.BusyEndsOnlyWithResponse : Prop :=
  ∀ (s t : State), SeqInv s → s.busy = true → step s = .next t → t.busy = false →
    s.schedule.head? ≠ some .reset →
    t.resultValid = true ∧ (t.result ≠ .ok → t.count = 0#8) ∧
      (t.result = .ok → t.count = s.okCount)

/-- R128, R226, R241: while the flag stays 0 SEQ is held at `U_WAIT` for ever, whatever HOST offers:
no step of its own changes anything, nothing is launched, no response is given and no command,
`FORCE_STOP` included, is accepted. -/
def Obligations.DeadBusHoldsForEver : Prop :=
  ∀ (s : State) (l : List Move) (n : Nat),
    s.uw = none → selected s.ph s.us = some .wait → s.ctrl.getLsbD 7 = false →
    (∀ m ∈ l, m = .seq ∨ ∃ w, m = .offer w) →
    ∃ t, runFor (l.length + n) (s.setSchedule l) = .next t ∧
      t = { s with schedule := [], cmd := t.cmd }

/-! ## Transactions -/

/-- R183, R158, R200: a mismatch in any awaited phase: the response is the phase's kind, given here by
value with its code, and no bytes, and the trace gains the phase's own launch and nothing after it.  The
premise on `RX` is R177's: only the two reads are ever there.  R158 gives `AckError` for
`IDX < LEN - 1`; that it is reported for every other byte that is not the last (`IDX` at or above `LEN`,
in no run) is the model's inference (DEDUCED: notes/assumptions/18.md). -/
def Obligations.MismatchAbortsAtItsPhase : Prop :=
  ∀ (s : State) (e st : Status) (entry : TraceEntry) (d : Byte) (ms : List Move),
    s.uw = none → s.us = .cfg → s.expected = some e → phaseEntry s = some entry →
    (s.ph = .rx → s.idx = s.len - 1#8 → s.op = .readReg ∨ s.op = .readBurst) →
    (s.ph.isStart = true → s.stopBusy = false) → st ≠ e →
    s.schedule = phaseMoves (if s.ph.isStart then 6 else 5) st d ++ ms →
    ∃ t k, runFor (if s.ph.isStart then 7 else 6) s = .next t ∧
      t.response = some ⟨k, 0#8, []⟩ ∧
      (s.ph = .start → k = .startError ∧ k.code = 1#4) ∧
      (s.ph = .slaw → k = .slaveWriteError ∧ k.code = 3#4) ∧
      (s.ph = .rega → k = .writeError ∧ k.code = 5#4) ∧
      (s.ph = .value → k = .writeError ∧ k.code = 5#4) ∧
      (s.ph = .rstart → k = .repeatedStartError ∧ k.code = 2#4) ∧
      (s.ph = .slar → k = .slaveReadError ∧ k.code = 4#4) ∧
      (s.ph = .rx → s.idx ≠ s.len - 1#8 → k = .ackError ∧ k.code = 7#4) ∧
      (s.ph = .rx → s.idx = s.len - 1#8 → s.op = .readBurst → k = .nackError ∧ k.code = 8#4) ∧
      (s.ph = .rx → s.idx = s.len - 1#8 → s.op = .readReg → k = .readError ∧ k.code = 6#4) ∧
      t.ph = .idle ∧ t.us = .cfg ∧
      t.trace = s.trace ++ [entry] ∧ t.buf = s.buf ∧ t.stLatch = st ∧ t.schedule = ms

/-- R171: `INIT` from the acceptance to the response. -/
def Obligations.InitCommandConfigures : Prop :=
  ∀ (s : State) (d : Byte) (w : CmdWord), s.uw = none → s.ph = .idle → s.initialized = false →
    s.schedule = [] → encode (.init d) = .cmd w → s.cmd = some w →
    ∃ t, runFor 2 s = .next t ∧ t.response = some ⟨.ok, 0#8, []⟩ ∧ t.br = d ∧
      t.ctrl = (0x44#8 ||| (s.ctrl &&& 0x80#8)) ∧ t.initialized = true ∧ t.trace = s.trace ∧
      t.ph = .idle

/-- R175, R155: `FORCE_STOP` from the acceptance to the response: one STOP is launched, and the flag
an aborted transaction left set is cleared. -/
def Obligations.ForceStopCommandLaunchesOneStop : Prop :=
  ∀ (s : State), Offers .forceStop s → s.schedule = [] →
    ∃ t, runFor 3 s = .next t ∧ t.response = some ⟨.ok, 0#8, []⟩ ∧ t.ph = .idle ∧
      t.trace = s.trace ++ [.stop] ∧ t.stopBusy = true ∧
      t.ctrl = (s.ctrl &&& 0x74#8) ||| 0x10#8

/-- R172: a write in which all four checks pass. -/
def Obligations.WriteTransactionSucceeds : Prop :=
  ∀ (s : State) (a r v : Byte) (ms : List Move),
    Offers (.writeReg a r v) s → a.toNat < 128 → s.stopBusy = false →
    s.schedule = .seq :: writeMoves ++ ms →
    ∃ t, runFor 28 s = .next t ∧ t.response = some ⟨.ok, 0#8, []⟩ ∧ t.ph = .idle ∧
      t.trace = s.trace ++
        [.start, .tx (slaByte (a.setWidth 7) 0#1), .tx r, .tx v, .stop] ∧
      t.buf = s.buf ∧ t.idx = s.idx ∧ t.len = s.len ∧
      t.ctrl.getLsbD 6 = s.ctrl.getLsbD 6 ∧ t.stopBusy = true ∧ t.schedule = ms

/-- R173: a single read in which all six checks pass. -/
def Obligations.SingleReadTransactionSucceeds : Prop :=
  ∀ (s : State) (a r d : Byte) (ms : List Move),
    Offers (.readReg a r) s → a.toNat < 128 → s.stopBusy = false → s.buf.wf = true →
    s.schedule = .seq :: readMoves [d] ++ ms →
    ∃ t, runFor ((readMoves [d]).length + 1) s = .next t ∧
      t.response = some ⟨.ok, 1#8, [d]⟩ ∧ t.ph = .idle ∧
      t.trace = s.trace ++ readTrace (a.setWidth 7) r 1 ∧
      t.ctrl.getLsbD 6 = false ∧ t.schedule = ms

/-- R159, R174: a burst read of any length 1 to 255: exactly `n` receives, the first `n - 1`
acknowledged and exactly the last not, and a response of exactly the `n` bytes in their order. -/
def Obligations.BurstReadTransactionSucceeds : Prop :=
  ∀ (s : State) (a r : Byte) (ds : List Byte) (ms : List Move),
    Offers (.readBurst a r (BitVec.ofNat 8 ds.length)) s → a.toNat < 128 →
    1 ≤ ds.length → ds.length ≤ 255 → s.stopBusy = false → s.buf.wf = true →
    s.schedule = .seq :: readMoves ds ++ ms →
    ∃ t, runFor ((readMoves ds).length + 1) s = .next t ∧
      t.response = some ⟨.ok, BitVec.ofNat 8 ds.length, ds⟩ ∧ t.ph = .idle ∧
      t.trace = s.trace ++ readTrace (a.setWidth 7) (r ||| 0x80#8) ds.length ∧
      (∀ j, ds.length ≤ j → t.buf.read j = s.buf.read j) ∧
      t.ctrl.getLsbD 6 = false ∧ t.schedule = ms

/-- R179: a burst of one byte and a single read launch the same primitives under the same answers;
their traces are equal byte for byte exactly when `reg[7] = 1`. -/
def Obligations.BurstOfOneMatchesSingleRead : Prop :=
  ∀ (s u : State) (a r d : Byte) (ms : List Move),
    Offers (.readReg a r) s → u = { s with cmd := u.cmd } → Offers (.readBurst a r 1#8) u →
    a.toNat < 128 → s.stopBusy = false → s.schedule = .seq :: readMoves [d] ++ ms →
    ∃ t v, runFor ((readMoves [d]).length + 1) s = .next t ∧
      runFor ((readMoves [d]).length + 1) u = .next v ∧
      t.response = v.response ∧
      t.trace.map TraceEntry.kind = v.trace.map TraceEntry.kind ∧
      (t.trace = v.trace ↔ r.getLsbD 7 = true)

/-- R178, under the premise `ENV_LIVE` of R78: with a controller that takes every enabled step, and
whatever it answers, a command under way ends with a response, within the number of SEQ's steps of
R160 and one step of CTL for each primitive. -/
def Obligations.LiveBusEndsEveryCommand : Prop :=
  ∀ (ans : State → Status × Byte) (s : State), SeqInv s → s.busy = true →
    ∃ n t, n ≤ 36 + 7 * s.len.toNat ∧ liveRun ans n s = .next t ∧
      t.busy = false ∧ t.resultValid = true

/-- R182: against the reference slave of spec/95_test_vectors.md section 2 (a test double, not
normative), a write followed by a read of the same register below 0x80 returns the value. -/
def Obligations.RoundTripAgainstReferenceSlave : Prop :=
  ∀ (y : RefSystem) (a r v : Byte) (ww wr : CmdWord),
    encode (.writeReg a r v) = .cmd ww → encode (.readReg a r) = .cmd wr →
    a.toNat < 128 → r.toNat < 128 → y.slave.addr = a.setWidth 7 → y.slave.rf.wf = true →
    y.state.uw = none → y.state.ph = .idle → y.state.initialized = true →
    y.state.inflight = none → y.state.stopBusy = false → y.state.busOwned = false →
    y.state.buf.wf = true →
    ∃ n y1 m y2,
      RefSystem.run n ⟨y.slave, y.state.setCmd (some ww)⟩ = some y1 ∧
      y1.state.ph = .idle ∧ y1.state.response = some ⟨.ok, 0#8, []⟩ ∧
      RefSystem.run m ⟨y1.slave, y1.state.setCmd (some wr)⟩ = some y2 ∧
      y2.state.ph = .idle ∧ y2.state.response = some ⟨.ok, 1#8, [v]⟩

/-- R102, R104, R105, R115: two values with one code are one value. -/
def Obligations.CodesAreInjective : Prop :=
  (∀ x y : Phase, x.code = y.code → x = y) ∧ (∀ x y : MicroStep, x.code = y.code → x = y) ∧
  (∀ x y : Result, x.code = y.code → x = y) ∧ (∀ x y : Op, x.code = y.code → x = y) ∧
  (∀ x y : TraceEntry, x.code = y.code → x = y)

/-! ## HOST's ports -/

/-- R16, R224: HOST's offer puts the command on the port, where it stays until it is accepted; nothing
else changes.  That an offer while a command is on the port leaves that command there is the model's
rendering of R224's "never to offer two commands at once" (DESIGN CHOICE: notes/assumptions/1.md, 22.md). -/
def Obligations.OfferPutsCommandOnPort : Prop :=
  ∀ (s : State) (w : CmdWord) (ms : List Move), s.schedule = .offer w :: ms →
    (s.cmd = none → step s = .next { s with schedule := ms, cmd := some w }) ∧
    (∀ v, s.cmd = some v → step s = .next { s with schedule := ms })

/-- R17, R85, R103: while a response is valid and SEQ is not `BUSY`, HOST reads `BUF[i]` at every index
below `COUNT`, the bytes of the response; the code and the count it reads are `RESULT` and `COUNT`, and
`cmd_ready` is `PH = IDLE` (R16). -/
def Obligations.HostReadsResponse : Prop :=
  ∀ s : State,
    (s.cmdReady = true ↔ s.ph = .idle) ∧ s.rspValid = s.resultValid ∧
    s.rspCode = s.result.code ∧ s.rspCount = s.count ∧
    (s.resultValid = true → s.ph = .idle → ∀ i : Byte, i.toNat < s.count.toNat →
      s.bufData i = s.buf.read i.toNat ∧
      ∀ r, s.response = some r → r.bytes[i.toNat]? = some (s.bufData i))

/-! ## Back to back: a command accepted while the stop of the one before is unfinished -/

/-- R75, R245: an unfinished stop of the command before only delays the first start: wherever its end
falls among the acceptance, `U_START` and `U_GO`, the launched start is the one that would have been
launched with the stop ended first, and it finds the bus released. -/
def Obligations.UnfinishedStopOnlyDelaysFirstStart : Prop :=
  ∀ (s : State) (i : Instr) (k : Nat) (ms : List Move),
    launchesStart i = true → Offers i s → s.stopBusy = true → k ≤ 3 →
    ∃ t,
      runFor 4 (s.setSchedule
        (List.replicate k .seq ++ .stopDone :: List.replicate (3 - k) .seq ++ ms)) = .next t ∧
      runFor 4 (s.setSchedule (.stopDone :: List.replicate 3 .seq ++ ms)) = .next t ∧
      t.inflight = some .start ∧ t.stopBusy = false ∧ t.busOwned = false ∧
      t.ctrl.getLsbD 4 = false ∧ t.ctrl.getLsbD 5 = true ∧ t.trace = s.trace ++ [.start] ∧
      t.ph = .start ∧ t.us = .wait ∧ t.schedule = ms

/-- R75, R245, R172 to R174 (vector Z5): a transaction accepted while the stop of the command before is
unfinished.  Its start is launched, and after the end of the stop the expected answers give the same
response and trace as ever.  R75 says that a completion is not enabled before the end of the stop; that
one tried then is a step that changes nothing is the model's (DESIGN CHOICE: notes/assumptions/1.md). -/
def Obligations.BackToBackTransactionsSucceed : Prop :=
  ∀ (s : State) (a r v : Byte) (ds : List Byte) (early : List (Status × Byte)) (ms : List Move),
    a.toNat < 128 → s.stopBusy = true →
    (Offers (.writeReg a r v) s →
      s.schedule = backToBack early ++ afterLaunch writeMoves ++ ms →
      ∃ t, runFor (backToBack early ++ afterLaunch writeMoves).length s = .next t ∧
        t.response = some ⟨.ok, 0#8, []⟩ ∧ t.ph = .idle ∧
        t.trace = s.trace ++
          [.start, .tx (slaByte (a.setWidth 7) 0#1), .tx r, .tx v, .stop] ∧
        t.buf = s.buf ∧ t.idx = s.idx ∧ t.len = s.len ∧
        t.ctrl.getLsbD 6 = s.ctrl.getLsbD 6 ∧ t.stopBusy = true ∧ t.schedule = ms) ∧
    (∀ d, Offers (.readReg a r) s → s.buf.wf = true →
      s.schedule = backToBack early ++ afterLaunch (readMoves [d]) ++ ms →
      ∃ t, runFor (backToBack early ++ afterLaunch (readMoves [d])).length s = .next t ∧
        t.response = some ⟨.ok, 1#8, [d]⟩ ∧ t.ph = .idle ∧
        t.trace = s.trace ++ readTrace (a.setWidth 7) r 1 ∧
        t.ctrl.getLsbD 6 = false ∧ t.stopBusy = true ∧ t.schedule = ms) ∧
    (Offers (.readBurst a r (BitVec.ofNat 8 ds.length)) s → 1 ≤ ds.length → ds.length ≤ 255 →
      s.buf.wf = true →
      s.schedule = backToBack early ++ afterLaunch (readMoves ds) ++ ms →
      ∃ t, runFor (backToBack early ++ afterLaunch (readMoves ds)).length s = .next t ∧
        t.response = some ⟨.ok, BitVec.ofNat 8 ds.length, ds⟩ ∧ t.ph = .idle ∧
        t.trace = s.trace ++ readTrace (a.setWidth 7) (r ||| 0x80#8) ds.length ∧
        (∀ j, ds.length ≤ j → t.buf.read j = s.buf.read j) ∧
        t.ctrl.getLsbD 6 = false ∧ t.stopBusy = true ∧ t.schedule = ms)

/-- R75, R183, R158, R214: a mismatch in a start phase entered while a stop is unfinished: the answer
given after the end of the stop aborts with the phase's kind, given here by value with its code.  The
stop has been executed by then, so `CTRL.STOP` is 0.  R75 says that a completion is not enabled before
the end of the stop; that one tried then is a step that changes nothing is the model's (DESIGN CHOICE:
notes/assumptions/1.md). -/
def Obligations.StartMismatchAfterUnfinishedStopAborts : Prop :=
  ∀ (s : State) (e st : Status) (early : List (Status × Byte)) (ms : List Move),
    s.uw = none → s.ph.isStart = true → s.us = .cfg → s.expected = some e →
    s.stopBusy = true → st ≠ e →
    s.schedule =
      .seq :: .seq :: waitForStop early ++ afterLaunch (startMoves st) ++ ms →
    ∃ t k, runFor (early.length + 8) s = .next t ∧
      t.response = some ⟨k, 0#8, []⟩ ∧
      (s.ph = .start → k = .startError ∧ k.code = 1#4) ∧
      (s.ph = .rstart → k = .repeatedStartError ∧ k.code = 2#4) ∧
      t.ph = .idle ∧ t.us = .cfg ∧
      t.trace = s.trace ++ [.start] ∧ t.buf = s.buf ∧ t.stLatch = st ∧
      t.stopBusy = false ∧ t.ctrl.getLsbD 4 = false ∧ t.schedule = ms
end

