-- ==== Sys2Proof/Laws/Flags.lean ====
section
/-! SUPPORT. The laws of the control word and the status field: what each write does to each field. -/

namespace Sys2Proof.Machine

/-- A field write leaves the completion flag alone (R64, R65, R247). -/
@[simp] theorem ctrlInt_fieldWriteByte (f : CtrlField) (b : Bool) (c : Byte) :
    ctrlInt (fieldWriteByte f b c) = false := by
  revert c; cases f <;> cases b <;> decide

@[simp] theorem ctrlInt_store_fieldWrite (f : CtrlField) (b : Bool) (c : Byte) :
    ctrlInt (storeCtrl c (fieldWriteByte f b c)) = ctrlInt c := by
  revert c; cases f <;> cases b <;> decide

/-- A field write gives the field its new value (R64). -/
@[simp] theorem ctrlField_store_fieldWrite_same (f : CtrlField) (b : Bool) (c : Byte) :
    ctrlField f (storeCtrl c (fieldWriteByte f b c)) = b := by
  revert c; cases f <;> cases b <;> decide

/-- A field write keeps the other fields (R64). -/
theorem ctrlField_store_fieldWrite_other {f g : CtrlField} (h : g ≠ f) (b : Bool) (c : Byte) :
    ctrlField g (storeCtrl c (fieldWriteByte f b c)) = ctrlField g c := by
  revert c; cases f <;> cases g <;> first | exact absurd rfl h | (cases b <;> decide)

/-- Every write of `CTRL` by SEQ leaves the reserved bits 0 (R64, R99, U13). -/
@[simp] theorem storeCtrl_used (old v : Byte) :
    storeCtrl old v &&& ~~~ctrlUsedMask = 0#8 := by
  unfold storeCtrl ctrlUsedMask ctrlFieldsMask
  ext i hi
  split <;> simp only [BitVec.getElem_and, BitVec.getElem_or, BitVec.getElem_not] <;>
    interval_cases i <;> simp

@[simp] theorem ctrlInt_goByte (c : Byte) : ctrlInt (goByte c) = true := by
  revert c; decide

/-- `clear_and_proceed` clears the flag and keeps the fields (R125). -/
@[simp] theorem ctrlInt_store_goByte (old c : Byte) : ctrlInt (storeCtrl old (goByte c)) = false := by
  simp only [storeCtrl, ctrlInt_goByte, if_true]
  revert c; decide

@[simp] theorem ctrlField_store_goByte (f : CtrlField) (old c : Byte) :
    ctrlField f (storeCtrl old (goByte c)) = ctrlField f c := by
  simp only [storeCtrl, ctrlInt_goByte, if_true]
  revert c; cases f <;> decide

@[simp] theorem ctrlInt_setInt (c : Byte) : ctrlInt (setInt c) = true := by
  revert c; decide

@[simp] theorem ctrlField_setInt (f : CtrlField) (c : Byte) :
    ctrlField f (setInt c) = ctrlField f c := by
  revert c; cases f <;> decide

@[simp] theorem ctrlInt_clearStop (c : Byte) : ctrlInt (clearStop c) = ctrlInt c := by
  revert c; decide

@[simp] theorem ctrlField_stop_clearStop (c : Byte) : ctrlField .stop (clearStop c) = false := by
  revert c; decide

theorem ctrlField_clearStop_other {f : CtrlField} (h : f ≠ .stop) (c : Byte) :
    ctrlField f (clearStop c) = ctrlField f c := by
  revert c; cases f <;> first | exact absurd rfl h | decide

/-- The flag read through the mask of the used bits is the flag. -/
@[simp] theorem ctrlInt_used (c : Byte) : ctrlInt (c &&& ctrlUsedMask) = ctrlInt c := by
  revert c; decide

@[simp] theorem ctrlField_used (f : CtrlField) (c : Byte) :
    ctrlField f (c &&& ctrlUsedMask) = ctrlField f c := by
  revert c; cases f <;> decide

/-- `read_status` gives back the status CTL wrote, whatever the low bits (R100, R140). -/
@[simp] theorem statusOf_packSr (s : Status) (low : BitVec 3) : statusOf (packSr s low) = s := by
  revert low; revert s; decide

end Sys2Proof.Machine
end

