-- ==== Sys2Proof/Laws/Memory.lean ====
section
/-! SUPPORT. The laws of the transfer buffer: reading after writing, the canonical form, the bound. -/

namespace Sys2Proof.Machine

/-- Every entry of a buffer is above `i`. -/
theorem Memory.read_of_all_above {m : Memory} {i : Nat}
    (h : m.all (fun d => i < d.1) = true) : m.read i = Memory.blank := by
  induction m with
  | nil => rfl
  | cons c m ih =>
    simp only [List.all_cons, Bool.and_eq_true, decide_eq_true_eq] at h
    simp [Memory.read, Nat.ne_of_gt h.1, ih h.2]

theorem Memory.wf_cons {c : Host.Cell} {m : Memory} :
    Memory.wf (c :: m) = true ↔
      c.2 ≠ Memory.blank ∧ m.all (fun d => c.1 < d.1) = true ∧ m.wf = true := by
  simp [Memory.wf, and_assoc]

/-- A read of the index just written gives the byte written. -/
theorem Memory.read_write_same {m : Memory} (h : m.wf = true) (i : Nat) (v : Byte) :
    (m.write i v).read i = v := by
  induction m with
  | nil => by_cases hv : v = Memory.blank <;> simp [Memory.write, Memory.read, hv]
  | cons c m ih =>
    obtain ⟨-, hall, hm⟩ := Memory.wf_cons.mp h
    rcases Nat.lt_trichotomy i c.1 with hlt | heq | hgt
    · have above : (c :: m).all (fun d => i < d.1) = true := by
        simp only [List.all_cons, Bool.and_eq_true, decide_eq_true_eq, List.all_eq_true] at hall ⊢
        exact ⟨hlt, fun d hd => Nat.lt_trans hlt (hall d hd)⟩
      by_cases hv : v = Memory.blank
      · simp only [Memory.write, hlt, hv, if_true]
        exact Memory.read_of_all_above above
      · simp [Memory.write, hlt, hv, Memory.read]
    · subst heq
      by_cases hv : v = Memory.blank
      · simp only [Memory.write, Nat.lt_irrefl, if_false, if_true, hv]
        exact Memory.read_of_all_above hall
      · simp [Memory.write, hv, Memory.read]
    · simp [Memory.write, Nat.not_lt_of_gt hgt, Nat.ne_of_lt hgt, Memory.read, ih hm]

/-- A write leaves every other index alone. -/
theorem Memory.read_write_other {m : Memory} {i j : Nat} (h : j ≠ i) (v : Byte) :
    (m.write i v).read j = m.read j := by
  induction m with
  | nil => by_cases hv : v = Memory.blank <;> simp [Memory.write, Memory.read, hv, h.symm]
  | cons c m ih =>
    unfold Memory.write
    split_ifs with hlt hv heq hv
    · rfl
    · simp [Memory.read, h.symm]
    · simp [Memory.read, heq, h.symm]
    · simp [Memory.read, heq, h.symm]
    · simp [Memory.read, ih]

/-- What holds of every entry and of the entry written holds of every entry afterwards. -/
theorem Memory.all_write {P : Host.Cell → Bool} {m : Memory} {i : Nat} {v : Byte}
    (hm : m.all P = true) (hi : P (i, v) = true) : (m.write i v).all P = true := by
  induction m with
  | nil =>
    by_cases hv : v = Memory.blank
    · simp [Memory.write, hv]
    · simpa [Memory.write, hv] using hi
  | cons c m ih =>
    simp only [List.all_cons, Bool.and_eq_true] at hm
    unfold Memory.write
    split_ifs
    · simpa using hm
    · simpa [hi] using hm
    · exact hm.2
    · simpa [hi] using hm.2
    · simpa [hm.1] using ih hm.2

/-- A write keeps the canonical form. -/
theorem Memory.wf_write {m : Memory} (h : m.wf = true) (i : Nat) (v : Byte) :
    (m.write i v).wf = true := by
  induction m with
  | nil => by_cases hv : v = Memory.blank <;> simp [Memory.write, Memory.wf, hv]
  | cons c m ih =>
    obtain ⟨hb, hall, hm⟩ := Memory.wf_cons.mp h
    rcases Nat.lt_trichotomy i c.1 with hlt | heq | hgt
    · have above : (c :: m).all (fun d => i < d.1) = true := by
        simp only [List.all_cons, Bool.and_eq_true, decide_eq_true_eq, List.all_eq_true] at hall ⊢
        exact ⟨hlt, fun d hd => Nat.lt_trans hlt (hall d hd)⟩
      by_cases hv : v = Memory.blank
      · simpa [Memory.write, hlt, hv] using h
      · simp only [Memory.write, hlt, hv, if_true, if_false]
        exact Memory.wf_cons.mpr ⟨hv, above, h⟩
    · subst heq
      by_cases hv : v = Memory.blank
      · simpa [Memory.write, hv] using hm
      · simp only [Memory.write, Nat.lt_irrefl, hv, if_true, if_false]
        exact Memory.wf_cons.mpr ⟨hv, hall, hm⟩
    · simp only [Memory.write, Nat.not_lt_of_gt hgt, Nat.ne_of_lt hgt, if_false]
      exact Memory.wf_cons.mpr ⟨hb, Memory.all_write hall (by simpa using hgt), ih hm⟩

/-- A write at an index of `BUF` lists no index outside it. -/
theorem Memory.bounded_write {m : Memory} {i : Nat} (h : m.bounded = true)
    (hi : i < Config.maxBurst) (v : Byte) : (m.write i v).bounded = true :=
  Memory.all_write h (by simpa using hi)

theorem Memory.wf_nil : Memory.wf [] = true := rfl

/-- The buffer after reset is canonical. -/
theorem reset_buf_wf : State.reset.buf.wf = true := rfl

theorem Memory.bounded_nil : Memory.bounded [] = true := rfl

end Sys2Proof.Machine
end

