-- ==== Sys2Proof/Laws/State.lean ====
section
/-! SUPPORT. What each named update of State leaves in each field: one lemma per field per update, so
that no later proof unfolds a record update. -/

namespace Sys2Proof.Machine

variable (s : State)

/-! ## State.setPc -/

@[simp] theorem State.setPc_ph (p : Phase) (u : MicroStep) : (s.setPc p u).ph = p := rfl
@[simp] theorem State.setPc_us (p : Phase) (u : MicroStep) : (s.setPc p u).us = u := rfl
@[simp] theorem State.setPc_op (p : Phase) (u : MicroStep) : (s.setPc p u).op = s.op := rfl
@[simp] theorem State.setPc_sla (p : Phase) (u : MicroStep) : (s.setPc p u).sla = s.sla := rfl
@[simp] theorem State.setPc_reg (p : Phase) (u : MicroStep) : (s.setPc p u).reg = s.reg := rfl
@[simp] theorem State.setPc_val (p : Phase) (u : MicroStep) : (s.setPc p u).val = s.val := rfl
@[simp] theorem State.setPc_divr (p : Phase) (u : MicroStep) : (s.setPc p u).divr = s.divr := rfl
@[simp] theorem State.setPc_len (p : Phase) (u : MicroStep) : (s.setPc p u).len = s.len := rfl
@[simp] theorem State.setPc_idx (p : Phase) (u : MicroStep) : (s.setPc p u).idx = s.idx := rfl
@[simp] theorem State.setPc_stLatch (p : Phase) (u : MicroStep) : (s.setPc p u).stLatch = s.stLatch := rfl
@[simp] theorem State.setPc_buf (p : Phase) (u : MicroStep) : (s.setPc p u).buf = s.buf := rfl
@[simp] theorem State.setPc_result (p : Phase) (u : MicroStep) : (s.setPc p u).result = s.result := rfl
@[simp] theorem State.setPc_resultValid (p : Phase) (u : MicroStep) : (s.setPc p u).resultValid = s.resultValid := rfl
@[simp] theorem State.setPc_count (p : Phase) (u : MicroStep) : (s.setPc p u).count = s.count := rfl
@[simp] theorem State.setPc_initialized (p : Phase) (u : MicroStep) : (s.setPc p u).initialized = s.initialized := rfl
@[simp] theorem State.setPc_ctrl (p : Phase) (u : MicroStep) : (s.setPc p u).ctrl = s.ctrl := rfl
@[simp] theorem State.setPc_sr (p : Phase) (u : MicroStep) : (s.setPc p u).sr = s.sr := rfl
@[simp] theorem State.setPc_dr (p : Phase) (u : MicroStep) : (s.setPc p u).dr = s.dr := rfl
@[simp] theorem State.setPc_br (p : Phase) (u : MicroStep) : (s.setPc p u).br = s.br := rfl
@[simp] theorem State.setPc_trace (p : Phase) (u : MicroStep) : (s.setPc p u).trace = s.trace := rfl
@[simp] theorem State.setPc_inflight (p : Phase) (u : MicroStep) : (s.setPc p u).inflight = s.inflight := rfl
@[simp] theorem State.setPc_stopBusy (p : Phase) (u : MicroStep) : (s.setPc p u).stopBusy = s.stopBusy := rfl
@[simp] theorem State.setPc_busOwned (p : Phase) (u : MicroStep) : (s.setPc p u).busOwned = s.busOwned := rfl
@[simp] theorem State.setPc_slave (p : Phase) (u : MicroStep) : (s.setPc p u).slave = s.slave := rfl
@[simp] theorem State.setPc_cmd (p : Phase) (u : MicroStep) : (s.setPc p u).cmd = s.cmd := rfl
@[simp] theorem State.setPc_uw (p : Phase) (u : MicroStep) : (s.setPc p u).uw = s.uw := rfl
@[simp] theorem State.setPc_schedule (p : Phase) (u : MicroStep) : (s.setPc p u).schedule = s.schedule := rfl
@[simp] theorem State.setPc_draws (p : Phase) (u : MicroStep) : (s.setPc p u).draws = s.draws := rfl

/-! ## State.setOp -/

@[simp] theorem State.setOp_ph (o : Op) : (s.setOp o).ph = s.ph := rfl
@[simp] theorem State.setOp_us (o : Op) : (s.setOp o).us = s.us := rfl
@[simp] theorem State.setOp_op (o : Op) : (s.setOp o).op = o := rfl
@[simp] theorem State.setOp_sla (o : Op) : (s.setOp o).sla = s.sla := rfl
@[simp] theorem State.setOp_reg (o : Op) : (s.setOp o).reg = s.reg := rfl
@[simp] theorem State.setOp_val (o : Op) : (s.setOp o).val = s.val := rfl
@[simp] theorem State.setOp_divr (o : Op) : (s.setOp o).divr = s.divr := rfl
@[simp] theorem State.setOp_len (o : Op) : (s.setOp o).len = s.len := rfl
@[simp] theorem State.setOp_idx (o : Op) : (s.setOp o).idx = s.idx := rfl
@[simp] theorem State.setOp_stLatch (o : Op) : (s.setOp o).stLatch = s.stLatch := rfl
@[simp] theorem State.setOp_buf (o : Op) : (s.setOp o).buf = s.buf := rfl
@[simp] theorem State.setOp_result (o : Op) : (s.setOp o).result = s.result := rfl
@[simp] theorem State.setOp_resultValid (o : Op) : (s.setOp o).resultValid = false := rfl
@[simp] theorem State.setOp_count (o : Op) : (s.setOp o).count = s.count := rfl
@[simp] theorem State.setOp_initialized (o : Op) : (s.setOp o).initialized = s.initialized := rfl
@[simp] theorem State.setOp_ctrl (o : Op) : (s.setOp o).ctrl = s.ctrl := rfl
@[simp] theorem State.setOp_sr (o : Op) : (s.setOp o).sr = s.sr := rfl
@[simp] theorem State.setOp_dr (o : Op) : (s.setOp o).dr = s.dr := rfl
@[simp] theorem State.setOp_br (o : Op) : (s.setOp o).br = s.br := rfl
@[simp] theorem State.setOp_trace (o : Op) : (s.setOp o).trace = s.trace := rfl
@[simp] theorem State.setOp_inflight (o : Op) : (s.setOp o).inflight = s.inflight := rfl
@[simp] theorem State.setOp_stopBusy (o : Op) : (s.setOp o).stopBusy = s.stopBusy := rfl
@[simp] theorem State.setOp_busOwned (o : Op) : (s.setOp o).busOwned = s.busOwned := rfl
@[simp] theorem State.setOp_slave (o : Op) : (s.setOp o).slave = s.slave := rfl
@[simp] theorem State.setOp_cmd (o : Op) : (s.setOp o).cmd = s.cmd := rfl
@[simp] theorem State.setOp_uw (o : Op) : (s.setOp o).uw = s.uw := rfl
@[simp] theorem State.setOp_schedule (o : Op) : (s.setOp o).schedule = s.schedule := rfl
@[simp] theorem State.setOp_draws (o : Op) : (s.setOp o).draws = s.draws := rfl

/-! ## State.setTarget -/

@[simp] theorem State.setTarget_ph (a : SlaveAddr) (r : Byte) : (s.setTarget a r).ph = s.ph := rfl
@[simp] theorem State.setTarget_us (a : SlaveAddr) (r : Byte) : (s.setTarget a r).us = s.us := rfl
@[simp] theorem State.setTarget_op (a : SlaveAddr) (r : Byte) : (s.setTarget a r).op = s.op := rfl
@[simp] theorem State.setTarget_sla (a : SlaveAddr) (r : Byte) : (s.setTarget a r).sla = a := rfl
@[simp] theorem State.setTarget_reg (a : SlaveAddr) (r : Byte) : (s.setTarget a r).reg = r := rfl
@[simp] theorem State.setTarget_val (a : SlaveAddr) (r : Byte) : (s.setTarget a r).val = s.val := rfl
@[simp] theorem State.setTarget_divr (a : SlaveAddr) (r : Byte) : (s.setTarget a r).divr = s.divr := rfl
@[simp] theorem State.setTarget_len (a : SlaveAddr) (r : Byte) : (s.setTarget a r).len = s.len := rfl
@[simp] theorem State.setTarget_idx (a : SlaveAddr) (r : Byte) : (s.setTarget a r).idx = s.idx := rfl
@[simp] theorem State.setTarget_stLatch (a : SlaveAddr) (r : Byte) : (s.setTarget a r).stLatch = s.stLatch := rfl
@[simp] theorem State.setTarget_buf (a : SlaveAddr) (r : Byte) : (s.setTarget a r).buf = s.buf := rfl
@[simp] theorem State.setTarget_result (a : SlaveAddr) (r : Byte) : (s.setTarget a r).result = s.result := rfl
@[simp] theorem State.setTarget_resultValid (a : SlaveAddr) (r : Byte) : (s.setTarget a r).resultValid = s.resultValid := rfl
@[simp] theorem State.setTarget_count (a : SlaveAddr) (r : Byte) : (s.setTarget a r).count = s.count := rfl
@[simp] theorem State.setTarget_initialized (a : SlaveAddr) (r : Byte) : (s.setTarget a r).initialized = s.initialized := rfl
@[simp] theorem State.setTarget_ctrl (a : SlaveAddr) (r : Byte) : (s.setTarget a r).ctrl = s.ctrl := rfl
@[simp] theorem State.setTarget_sr (a : SlaveAddr) (r : Byte) : (s.setTarget a r).sr = s.sr := rfl
@[simp] theorem State.setTarget_dr (a : SlaveAddr) (r : Byte) : (s.setTarget a r).dr = s.dr := rfl
@[simp] theorem State.setTarget_br (a : SlaveAddr) (r : Byte) : (s.setTarget a r).br = s.br := rfl
@[simp] theorem State.setTarget_trace (a : SlaveAddr) (r : Byte) : (s.setTarget a r).trace = s.trace := rfl
@[simp] theorem State.setTarget_inflight (a : SlaveAddr) (r : Byte) : (s.setTarget a r).inflight = s.inflight := rfl
@[simp] theorem State.setTarget_stopBusy (a : SlaveAddr) (r : Byte) : (s.setTarget a r).stopBusy = s.stopBusy := rfl
@[simp] theorem State.setTarget_busOwned (a : SlaveAddr) (r : Byte) : (s.setTarget a r).busOwned = s.busOwned := rfl
@[simp] theorem State.setTarget_slave (a : SlaveAddr) (r : Byte) : (s.setTarget a r).slave = s.slave := rfl
@[simp] theorem State.setTarget_cmd (a : SlaveAddr) (r : Byte) : (s.setTarget a r).cmd = s.cmd := rfl
@[simp] theorem State.setTarget_uw (a : SlaveAddr) (r : Byte) : (s.setTarget a r).uw = s.uw := rfl
@[simp] theorem State.setTarget_schedule (a : SlaveAddr) (r : Byte) : (s.setTarget a r).schedule = s.schedule := rfl
@[simp] theorem State.setTarget_draws (a : SlaveAddr) (r : Byte) : (s.setTarget a r).draws = s.draws := rfl

/-! ## State.setVal -/

@[simp] theorem State.setVal_ph (v : Byte) : (s.setVal v).ph = s.ph := rfl
@[simp] theorem State.setVal_us (v : Byte) : (s.setVal v).us = s.us := rfl
@[simp] theorem State.setVal_op (v : Byte) : (s.setVal v).op = s.op := rfl
@[simp] theorem State.setVal_sla (v : Byte) : (s.setVal v).sla = s.sla := rfl
@[simp] theorem State.setVal_reg (v : Byte) : (s.setVal v).reg = s.reg := rfl
@[simp] theorem State.setVal_val (v : Byte) : (s.setVal v).val = v := rfl
@[simp] theorem State.setVal_divr (v : Byte) : (s.setVal v).divr = s.divr := rfl
@[simp] theorem State.setVal_len (v : Byte) : (s.setVal v).len = s.len := rfl
@[simp] theorem State.setVal_idx (v : Byte) : (s.setVal v).idx = s.idx := rfl
@[simp] theorem State.setVal_stLatch (v : Byte) : (s.setVal v).stLatch = s.stLatch := rfl
@[simp] theorem State.setVal_buf (v : Byte) : (s.setVal v).buf = s.buf := rfl
@[simp] theorem State.setVal_result (v : Byte) : (s.setVal v).result = s.result := rfl
@[simp] theorem State.setVal_resultValid (v : Byte) : (s.setVal v).resultValid = s.resultValid := rfl
@[simp] theorem State.setVal_count (v : Byte) : (s.setVal v).count = s.count := rfl
@[simp] theorem State.setVal_initialized (v : Byte) : (s.setVal v).initialized = s.initialized := rfl
@[simp] theorem State.setVal_ctrl (v : Byte) : (s.setVal v).ctrl = s.ctrl := rfl
@[simp] theorem State.setVal_sr (v : Byte) : (s.setVal v).sr = s.sr := rfl
@[simp] theorem State.setVal_dr (v : Byte) : (s.setVal v).dr = s.dr := rfl
@[simp] theorem State.setVal_br (v : Byte) : (s.setVal v).br = s.br := rfl
@[simp] theorem State.setVal_trace (v : Byte) : (s.setVal v).trace = s.trace := rfl
@[simp] theorem State.setVal_inflight (v : Byte) : (s.setVal v).inflight = s.inflight := rfl
@[simp] theorem State.setVal_stopBusy (v : Byte) : (s.setVal v).stopBusy = s.stopBusy := rfl
@[simp] theorem State.setVal_busOwned (v : Byte) : (s.setVal v).busOwned = s.busOwned := rfl
@[simp] theorem State.setVal_slave (v : Byte) : (s.setVal v).slave = s.slave := rfl
@[simp] theorem State.setVal_cmd (v : Byte) : (s.setVal v).cmd = s.cmd := rfl
@[simp] theorem State.setVal_uw (v : Byte) : (s.setVal v).uw = s.uw := rfl
@[simp] theorem State.setVal_schedule (v : Byte) : (s.setVal v).schedule = s.schedule := rfl
@[simp] theorem State.setVal_draws (v : Byte) : (s.setVal v).draws = s.draws := rfl

/-! ## State.setDivr -/

@[simp] theorem State.setDivr_ph (v : Byte) : (s.setDivr v).ph = s.ph := rfl
@[simp] theorem State.setDivr_us (v : Byte) : (s.setDivr v).us = s.us := rfl
@[simp] theorem State.setDivr_op (v : Byte) : (s.setDivr v).op = s.op := rfl
@[simp] theorem State.setDivr_sla (v : Byte) : (s.setDivr v).sla = s.sla := rfl
@[simp] theorem State.setDivr_reg (v : Byte) : (s.setDivr v).reg = s.reg := rfl
@[simp] theorem State.setDivr_val (v : Byte) : (s.setDivr v).val = s.val := rfl
@[simp] theorem State.setDivr_divr (v : Byte) : (s.setDivr v).divr = v := rfl
@[simp] theorem State.setDivr_len (v : Byte) : (s.setDivr v).len = s.len := rfl
@[simp] theorem State.setDivr_idx (v : Byte) : (s.setDivr v).idx = s.idx := rfl
@[simp] theorem State.setDivr_stLatch (v : Byte) : (s.setDivr v).stLatch = s.stLatch := rfl
@[simp] theorem State.setDivr_buf (v : Byte) : (s.setDivr v).buf = s.buf := rfl
@[simp] theorem State.setDivr_result (v : Byte) : (s.setDivr v).result = s.result := rfl
@[simp] theorem State.setDivr_resultValid (v : Byte) : (s.setDivr v).resultValid = s.resultValid := rfl
@[simp] theorem State.setDivr_count (v : Byte) : (s.setDivr v).count = s.count := rfl
@[simp] theorem State.setDivr_initialized (v : Byte) : (s.setDivr v).initialized = s.initialized := rfl
@[simp] theorem State.setDivr_ctrl (v : Byte) : (s.setDivr v).ctrl = s.ctrl := rfl
@[simp] theorem State.setDivr_sr (v : Byte) : (s.setDivr v).sr = s.sr := rfl
@[simp] theorem State.setDivr_dr (v : Byte) : (s.setDivr v).dr = s.dr := rfl
@[simp] theorem State.setDivr_br (v : Byte) : (s.setDivr v).br = s.br := rfl
@[simp] theorem State.setDivr_trace (v : Byte) : (s.setDivr v).trace = s.trace := rfl
@[simp] theorem State.setDivr_inflight (v : Byte) : (s.setDivr v).inflight = s.inflight := rfl
@[simp] theorem State.setDivr_stopBusy (v : Byte) : (s.setDivr v).stopBusy = s.stopBusy := rfl
@[simp] theorem State.setDivr_busOwned (v : Byte) : (s.setDivr v).busOwned = s.busOwned := rfl
@[simp] theorem State.setDivr_slave (v : Byte) : (s.setDivr v).slave = s.slave := rfl
@[simp] theorem State.setDivr_cmd (v : Byte) : (s.setDivr v).cmd = s.cmd := rfl
@[simp] theorem State.setDivr_uw (v : Byte) : (s.setDivr v).uw = s.uw := rfl
@[simp] theorem State.setDivr_schedule (v : Byte) : (s.setDivr v).schedule = s.schedule := rfl
@[simp] theorem State.setDivr_draws (v : Byte) : (s.setDivr v).draws = s.draws := rfl

/-! ## State.setLen -/

@[simp] theorem State.setLen_ph (v : Byte) : (s.setLen v).ph = s.ph := rfl
@[simp] theorem State.setLen_us (v : Byte) : (s.setLen v).us = s.us := rfl
@[simp] theorem State.setLen_op (v : Byte) : (s.setLen v).op = s.op := rfl
@[simp] theorem State.setLen_sla (v : Byte) : (s.setLen v).sla = s.sla := rfl
@[simp] theorem State.setLen_reg (v : Byte) : (s.setLen v).reg = s.reg := rfl
@[simp] theorem State.setLen_val (v : Byte) : (s.setLen v).val = s.val := rfl
@[simp] theorem State.setLen_divr (v : Byte) : (s.setLen v).divr = s.divr := rfl
@[simp] theorem State.setLen_len (v : Byte) : (s.setLen v).len = v := rfl
@[simp] theorem State.setLen_idx (v : Byte) : (s.setLen v).idx = s.idx := rfl
@[simp] theorem State.setLen_stLatch (v : Byte) : (s.setLen v).stLatch = s.stLatch := rfl
@[simp] theorem State.setLen_buf (v : Byte) : (s.setLen v).buf = s.buf := rfl
@[simp] theorem State.setLen_result (v : Byte) : (s.setLen v).result = s.result := rfl
@[simp] theorem State.setLen_resultValid (v : Byte) : (s.setLen v).resultValid = s.resultValid := rfl
@[simp] theorem State.setLen_count (v : Byte) : (s.setLen v).count = s.count := rfl
@[simp] theorem State.setLen_initialized (v : Byte) : (s.setLen v).initialized = s.initialized := rfl
@[simp] theorem State.setLen_ctrl (v : Byte) : (s.setLen v).ctrl = s.ctrl := rfl
@[simp] theorem State.setLen_sr (v : Byte) : (s.setLen v).sr = s.sr := rfl
@[simp] theorem State.setLen_dr (v : Byte) : (s.setLen v).dr = s.dr := rfl
@[simp] theorem State.setLen_br (v : Byte) : (s.setLen v).br = s.br := rfl
@[simp] theorem State.setLen_trace (v : Byte) : (s.setLen v).trace = s.trace := rfl
@[simp] theorem State.setLen_inflight (v : Byte) : (s.setLen v).inflight = s.inflight := rfl
@[simp] theorem State.setLen_stopBusy (v : Byte) : (s.setLen v).stopBusy = s.stopBusy := rfl
@[simp] theorem State.setLen_busOwned (v : Byte) : (s.setLen v).busOwned = s.busOwned := rfl
@[simp] theorem State.setLen_slave (v : Byte) : (s.setLen v).slave = s.slave := rfl
@[simp] theorem State.setLen_cmd (v : Byte) : (s.setLen v).cmd = s.cmd := rfl
@[simp] theorem State.setLen_uw (v : Byte) : (s.setLen v).uw = s.uw := rfl
@[simp] theorem State.setLen_schedule (v : Byte) : (s.setLen v).schedule = s.schedule := rfl
@[simp] theorem State.setLen_draws (v : Byte) : (s.setLen v).draws = s.draws := rfl

/-! ## State.setIdx -/

@[simp] theorem State.setIdx_ph (v : Byte) : (s.setIdx v).ph = s.ph := rfl
@[simp] theorem State.setIdx_us (v : Byte) : (s.setIdx v).us = s.us := rfl
@[simp] theorem State.setIdx_op (v : Byte) : (s.setIdx v).op = s.op := rfl
@[simp] theorem State.setIdx_sla (v : Byte) : (s.setIdx v).sla = s.sla := rfl
@[simp] theorem State.setIdx_reg (v : Byte) : (s.setIdx v).reg = s.reg := rfl
@[simp] theorem State.setIdx_val (v : Byte) : (s.setIdx v).val = s.val := rfl
@[simp] theorem State.setIdx_divr (v : Byte) : (s.setIdx v).divr = s.divr := rfl
@[simp] theorem State.setIdx_len (v : Byte) : (s.setIdx v).len = s.len := rfl
@[simp] theorem State.setIdx_idx (v : Byte) : (s.setIdx v).idx = v := rfl
@[simp] theorem State.setIdx_stLatch (v : Byte) : (s.setIdx v).stLatch = s.stLatch := rfl
@[simp] theorem State.setIdx_buf (v : Byte) : (s.setIdx v).buf = s.buf := rfl
@[simp] theorem State.setIdx_result (v : Byte) : (s.setIdx v).result = s.result := rfl
@[simp] theorem State.setIdx_resultValid (v : Byte) : (s.setIdx v).resultValid = s.resultValid := rfl
@[simp] theorem State.setIdx_count (v : Byte) : (s.setIdx v).count = s.count := rfl
@[simp] theorem State.setIdx_initialized (v : Byte) : (s.setIdx v).initialized = s.initialized := rfl
@[simp] theorem State.setIdx_ctrl (v : Byte) : (s.setIdx v).ctrl = s.ctrl := rfl
@[simp] theorem State.setIdx_sr (v : Byte) : (s.setIdx v).sr = s.sr := rfl
@[simp] theorem State.setIdx_dr (v : Byte) : (s.setIdx v).dr = s.dr := rfl
@[simp] theorem State.setIdx_br (v : Byte) : (s.setIdx v).br = s.br := rfl
@[simp] theorem State.setIdx_trace (v : Byte) : (s.setIdx v).trace = s.trace := rfl
@[simp] theorem State.setIdx_inflight (v : Byte) : (s.setIdx v).inflight = s.inflight := rfl
@[simp] theorem State.setIdx_stopBusy (v : Byte) : (s.setIdx v).stopBusy = s.stopBusy := rfl
@[simp] theorem State.setIdx_busOwned (v : Byte) : (s.setIdx v).busOwned = s.busOwned := rfl
@[simp] theorem State.setIdx_slave (v : Byte) : (s.setIdx v).slave = s.slave := rfl
@[simp] theorem State.setIdx_cmd (v : Byte) : (s.setIdx v).cmd = s.cmd := rfl
@[simp] theorem State.setIdx_uw (v : Byte) : (s.setIdx v).uw = s.uw := rfl
@[simp] theorem State.setIdx_schedule (v : Byte) : (s.setIdx v).schedule = s.schedule := rfl
@[simp] theorem State.setIdx_draws (v : Byte) : (s.setIdx v).draws = s.draws := rfl

/-! ## State.setStLatch -/

@[simp] theorem State.setStLatch_ph (v : Status) : (s.setStLatch v).ph = s.ph := rfl
@[simp] theorem State.setStLatch_us (v : Status) : (s.setStLatch v).us = s.us := rfl
@[simp] theorem State.setStLatch_op (v : Status) : (s.setStLatch v).op = s.op := rfl
@[simp] theorem State.setStLatch_sla (v : Status) : (s.setStLatch v).sla = s.sla := rfl
@[simp] theorem State.setStLatch_reg (v : Status) : (s.setStLatch v).reg = s.reg := rfl
@[simp] theorem State.setStLatch_val (v : Status) : (s.setStLatch v).val = s.val := rfl
@[simp] theorem State.setStLatch_divr (v : Status) : (s.setStLatch v).divr = s.divr := rfl
@[simp] theorem State.setStLatch_len (v : Status) : (s.setStLatch v).len = s.len := rfl
@[simp] theorem State.setStLatch_idx (v : Status) : (s.setStLatch v).idx = s.idx := rfl
@[simp] theorem State.setStLatch_stLatch (v : Status) : (s.setStLatch v).stLatch = v := rfl
@[simp] theorem State.setStLatch_buf (v : Status) : (s.setStLatch v).buf = s.buf := rfl
@[simp] theorem State.setStLatch_result (v : Status) : (s.setStLatch v).result = s.result := rfl
@[simp] theorem State.setStLatch_resultValid (v : Status) : (s.setStLatch v).resultValid = s.resultValid := rfl
@[simp] theorem State.setStLatch_count (v : Status) : (s.setStLatch v).count = s.count := rfl
@[simp] theorem State.setStLatch_initialized (v : Status) : (s.setStLatch v).initialized = s.initialized := rfl
@[simp] theorem State.setStLatch_ctrl (v : Status) : (s.setStLatch v).ctrl = s.ctrl := rfl
@[simp] theorem State.setStLatch_sr (v : Status) : (s.setStLatch v).sr = s.sr := rfl
@[simp] theorem State.setStLatch_dr (v : Status) : (s.setStLatch v).dr = s.dr := rfl
@[simp] theorem State.setStLatch_br (v : Status) : (s.setStLatch v).br = s.br := rfl
@[simp] theorem State.setStLatch_trace (v : Status) : (s.setStLatch v).trace = s.trace := rfl
@[simp] theorem State.setStLatch_inflight (v : Status) : (s.setStLatch v).inflight = s.inflight := rfl
@[simp] theorem State.setStLatch_stopBusy (v : Status) : (s.setStLatch v).stopBusy = s.stopBusy := rfl
@[simp] theorem State.setStLatch_busOwned (v : Status) : (s.setStLatch v).busOwned = s.busOwned := rfl
@[simp] theorem State.setStLatch_slave (v : Status) : (s.setStLatch v).slave = s.slave := rfl
@[simp] theorem State.setStLatch_cmd (v : Status) : (s.setStLatch v).cmd = s.cmd := rfl
@[simp] theorem State.setStLatch_uw (v : Status) : (s.setStLatch v).uw = s.uw := rfl
@[simp] theorem State.setStLatch_schedule (v : Status) : (s.setStLatch v).schedule = s.schedule := rfl
@[simp] theorem State.setStLatch_draws (v : Status) : (s.setStLatch v).draws = s.draws := rfl

/-! ## State.setBuf -/

@[simp] theorem State.setBuf_ph (v : Memory) : (s.setBuf v).ph = s.ph := rfl
@[simp] theorem State.setBuf_us (v : Memory) : (s.setBuf v).us = s.us := rfl
@[simp] theorem State.setBuf_op (v : Memory) : (s.setBuf v).op = s.op := rfl
@[simp] theorem State.setBuf_sla (v : Memory) : (s.setBuf v).sla = s.sla := rfl
@[simp] theorem State.setBuf_reg (v : Memory) : (s.setBuf v).reg = s.reg := rfl
@[simp] theorem State.setBuf_val (v : Memory) : (s.setBuf v).val = s.val := rfl
@[simp] theorem State.setBuf_divr (v : Memory) : (s.setBuf v).divr = s.divr := rfl
@[simp] theorem State.setBuf_len (v : Memory) : (s.setBuf v).len = s.len := rfl
@[simp] theorem State.setBuf_idx (v : Memory) : (s.setBuf v).idx = s.idx := rfl
@[simp] theorem State.setBuf_stLatch (v : Memory) : (s.setBuf v).stLatch = s.stLatch := rfl
@[simp] theorem State.setBuf_buf (v : Memory) : (s.setBuf v).buf = v := rfl
@[simp] theorem State.setBuf_result (v : Memory) : (s.setBuf v).result = s.result := rfl
@[simp] theorem State.setBuf_resultValid (v : Memory) : (s.setBuf v).resultValid = s.resultValid := rfl
@[simp] theorem State.setBuf_count (v : Memory) : (s.setBuf v).count = s.count := rfl
@[simp] theorem State.setBuf_initialized (v : Memory) : (s.setBuf v).initialized = s.initialized := rfl
@[simp] theorem State.setBuf_ctrl (v : Memory) : (s.setBuf v).ctrl = s.ctrl := rfl
@[simp] theorem State.setBuf_sr (v : Memory) : (s.setBuf v).sr = s.sr := rfl
@[simp] theorem State.setBuf_dr (v : Memory) : (s.setBuf v).dr = s.dr := rfl
@[simp] theorem State.setBuf_br (v : Memory) : (s.setBuf v).br = s.br := rfl
@[simp] theorem State.setBuf_trace (v : Memory) : (s.setBuf v).trace = s.trace := rfl
@[simp] theorem State.setBuf_inflight (v : Memory) : (s.setBuf v).inflight = s.inflight := rfl
@[simp] theorem State.setBuf_stopBusy (v : Memory) : (s.setBuf v).stopBusy = s.stopBusy := rfl
@[simp] theorem State.setBuf_busOwned (v : Memory) : (s.setBuf v).busOwned = s.busOwned := rfl
@[simp] theorem State.setBuf_slave (v : Memory) : (s.setBuf v).slave = s.slave := rfl
@[simp] theorem State.setBuf_cmd (v : Memory) : (s.setBuf v).cmd = s.cmd := rfl
@[simp] theorem State.setBuf_uw (v : Memory) : (s.setBuf v).uw = s.uw := rfl
@[simp] theorem State.setBuf_schedule (v : Memory) : (s.setBuf v).schedule = s.schedule := rfl
@[simp] theorem State.setBuf_draws (v : Memory) : (s.setBuf v).draws = s.draws := rfl

/-! ## State.setResponse -/

@[simp] theorem State.setResponse_ph (k : Result) (c : Byte) : (s.setResponse k c).ph = s.ph := rfl
@[simp] theorem State.setResponse_us (k : Result) (c : Byte) : (s.setResponse k c).us = s.us := rfl
@[simp] theorem State.setResponse_op (k : Result) (c : Byte) : (s.setResponse k c).op = s.op := rfl
@[simp] theorem State.setResponse_sla (k : Result) (c : Byte) : (s.setResponse k c).sla = s.sla := rfl
@[simp] theorem State.setResponse_reg (k : Result) (c : Byte) : (s.setResponse k c).reg = s.reg := rfl
@[simp] theorem State.setResponse_val (k : Result) (c : Byte) : (s.setResponse k c).val = s.val := rfl
@[simp] theorem State.setResponse_divr (k : Result) (c : Byte) : (s.setResponse k c).divr = s.divr := rfl
@[simp] theorem State.setResponse_len (k : Result) (c : Byte) : (s.setResponse k c).len = s.len := rfl
@[simp] theorem State.setResponse_idx (k : Result) (c : Byte) : (s.setResponse k c).idx = s.idx := rfl
@[simp] theorem State.setResponse_stLatch (k : Result) (c : Byte) : (s.setResponse k c).stLatch = s.stLatch := rfl
@[simp] theorem State.setResponse_buf (k : Result) (c : Byte) : (s.setResponse k c).buf = s.buf := rfl
@[simp] theorem State.setResponse_result (k : Result) (c : Byte) : (s.setResponse k c).result = k := rfl
@[simp] theorem State.setResponse_resultValid (k : Result) (c : Byte) : (s.setResponse k c).resultValid = true := rfl
@[simp] theorem State.setResponse_count (k : Result) (c : Byte) : (s.setResponse k c).count = c := rfl
@[simp] theorem State.setResponse_initialized (k : Result) (c : Byte) : (s.setResponse k c).initialized = s.initialized := rfl
@[simp] theorem State.setResponse_ctrl (k : Result) (c : Byte) : (s.setResponse k c).ctrl = s.ctrl := rfl
@[simp] theorem State.setResponse_sr (k : Result) (c : Byte) : (s.setResponse k c).sr = s.sr := rfl
@[simp] theorem State.setResponse_dr (k : Result) (c : Byte) : (s.setResponse k c).dr = s.dr := rfl
@[simp] theorem State.setResponse_br (k : Result) (c : Byte) : (s.setResponse k c).br = s.br := rfl
@[simp] theorem State.setResponse_trace (k : Result) (c : Byte) : (s.setResponse k c).trace = s.trace := rfl
@[simp] theorem State.setResponse_inflight (k : Result) (c : Byte) : (s.setResponse k c).inflight = s.inflight := rfl
@[simp] theorem State.setResponse_stopBusy (k : Result) (c : Byte) : (s.setResponse k c).stopBusy = s.stopBusy := rfl
@[simp] theorem State.setResponse_busOwned (k : Result) (c : Byte) : (s.setResponse k c).busOwned = s.busOwned := rfl
@[simp] theorem State.setResponse_slave (k : Result) (c : Byte) : (s.setResponse k c).slave = s.slave := rfl
@[simp] theorem State.setResponse_cmd (k : Result) (c : Byte) : (s.setResponse k c).cmd = s.cmd := rfl
@[simp] theorem State.setResponse_uw (k : Result) (c : Byte) : (s.setResponse k c).uw = s.uw := rfl
@[simp] theorem State.setResponse_schedule (k : Result) (c : Byte) : (s.setResponse k c).schedule = s.schedule := rfl
@[simp] theorem State.setResponse_draws (k : Result) (c : Byte) : (s.setResponse k c).draws = s.draws := rfl

/-! ## State.setInitialized -/

@[simp] theorem State.setInitialized_ph (v : Bool) : (s.setInitialized v).ph = s.ph := rfl
@[simp] theorem State.setInitialized_us (v : Bool) : (s.setInitialized v).us = s.us := rfl
@[simp] theorem State.setInitialized_op (v : Bool) : (s.setInitialized v).op = s.op := rfl
@[simp] theorem State.setInitialized_sla (v : Bool) : (s.setInitialized v).sla = s.sla := rfl
@[simp] theorem State.setInitialized_reg (v : Bool) : (s.setInitialized v).reg = s.reg := rfl
@[simp] theorem State.setInitialized_val (v : Bool) : (s.setInitialized v).val = s.val := rfl
@[simp] theorem State.setInitialized_divr (v : Bool) : (s.setInitialized v).divr = s.divr := rfl
@[simp] theorem State.setInitialized_len (v : Bool) : (s.setInitialized v).len = s.len := rfl
@[simp] theorem State.setInitialized_idx (v : Bool) : (s.setInitialized v).idx = s.idx := rfl
@[simp] theorem State.setInitialized_stLatch (v : Bool) : (s.setInitialized v).stLatch = s.stLatch := rfl
@[simp] theorem State.setInitialized_buf (v : Bool) : (s.setInitialized v).buf = s.buf := rfl
@[simp] theorem State.setInitialized_result (v : Bool) : (s.setInitialized v).result = s.result := rfl
@[simp] theorem State.setInitialized_resultValid (v : Bool) : (s.setInitialized v).resultValid = s.resultValid := rfl
@[simp] theorem State.setInitialized_count (v : Bool) : (s.setInitialized v).count = s.count := rfl
@[simp] theorem State.setInitialized_initialized (v : Bool) : (s.setInitialized v).initialized = v := rfl
@[simp] theorem State.setInitialized_ctrl (v : Bool) : (s.setInitialized v).ctrl = s.ctrl := rfl
@[simp] theorem State.setInitialized_sr (v : Bool) : (s.setInitialized v).sr = s.sr := rfl
@[simp] theorem State.setInitialized_dr (v : Bool) : (s.setInitialized v).dr = s.dr := rfl
@[simp] theorem State.setInitialized_br (v : Bool) : (s.setInitialized v).br = s.br := rfl
@[simp] theorem State.setInitialized_trace (v : Bool) : (s.setInitialized v).trace = s.trace := rfl
@[simp] theorem State.setInitialized_inflight (v : Bool) : (s.setInitialized v).inflight = s.inflight := rfl
@[simp] theorem State.setInitialized_stopBusy (v : Bool) : (s.setInitialized v).stopBusy = s.stopBusy := rfl
@[simp] theorem State.setInitialized_busOwned (v : Bool) : (s.setInitialized v).busOwned = s.busOwned := rfl
@[simp] theorem State.setInitialized_slave (v : Bool) : (s.setInitialized v).slave = s.slave := rfl
@[simp] theorem State.setInitialized_cmd (v : Bool) : (s.setInitialized v).cmd = s.cmd := rfl
@[simp] theorem State.setInitialized_uw (v : Bool) : (s.setInitialized v).uw = s.uw := rfl
@[simp] theorem State.setInitialized_schedule (v : Bool) : (s.setInitialized v).schedule = s.schedule := rfl
@[simp] theorem State.setInitialized_draws (v : Bool) : (s.setInitialized v).draws = s.draws := rfl

/-! ## State.setCtrl -/

@[simp] theorem State.setCtrl_ph (v : Byte) : (s.setCtrl v).ph = s.ph := rfl
@[simp] theorem State.setCtrl_us (v : Byte) : (s.setCtrl v).us = s.us := rfl
@[simp] theorem State.setCtrl_op (v : Byte) : (s.setCtrl v).op = s.op := rfl
@[simp] theorem State.setCtrl_sla (v : Byte) : (s.setCtrl v).sla = s.sla := rfl
@[simp] theorem State.setCtrl_reg (v : Byte) : (s.setCtrl v).reg = s.reg := rfl
@[simp] theorem State.setCtrl_val (v : Byte) : (s.setCtrl v).val = s.val := rfl
@[simp] theorem State.setCtrl_divr (v : Byte) : (s.setCtrl v).divr = s.divr := rfl
@[simp] theorem State.setCtrl_len (v : Byte) : (s.setCtrl v).len = s.len := rfl
@[simp] theorem State.setCtrl_idx (v : Byte) : (s.setCtrl v).idx = s.idx := rfl
@[simp] theorem State.setCtrl_stLatch (v : Byte) : (s.setCtrl v).stLatch = s.stLatch := rfl
@[simp] theorem State.setCtrl_buf (v : Byte) : (s.setCtrl v).buf = s.buf := rfl
@[simp] theorem State.setCtrl_result (v : Byte) : (s.setCtrl v).result = s.result := rfl
@[simp] theorem State.setCtrl_resultValid (v : Byte) : (s.setCtrl v).resultValid = s.resultValid := rfl
@[simp] theorem State.setCtrl_count (v : Byte) : (s.setCtrl v).count = s.count := rfl
@[simp] theorem State.setCtrl_initialized (v : Byte) : (s.setCtrl v).initialized = s.initialized := rfl
@[simp] theorem State.setCtrl_ctrl (v : Byte) : (s.setCtrl v).ctrl = v := rfl
@[simp] theorem State.setCtrl_sr (v : Byte) : (s.setCtrl v).sr = s.sr := rfl
@[simp] theorem State.setCtrl_dr (v : Byte) : (s.setCtrl v).dr = s.dr := rfl
@[simp] theorem State.setCtrl_br (v : Byte) : (s.setCtrl v).br = s.br := rfl
@[simp] theorem State.setCtrl_trace (v : Byte) : (s.setCtrl v).trace = s.trace := rfl
@[simp] theorem State.setCtrl_inflight (v : Byte) : (s.setCtrl v).inflight = s.inflight := rfl
@[simp] theorem State.setCtrl_stopBusy (v : Byte) : (s.setCtrl v).stopBusy = s.stopBusy := rfl
@[simp] theorem State.setCtrl_busOwned (v : Byte) : (s.setCtrl v).busOwned = s.busOwned := rfl
@[simp] theorem State.setCtrl_slave (v : Byte) : (s.setCtrl v).slave = s.slave := rfl
@[simp] theorem State.setCtrl_cmd (v : Byte) : (s.setCtrl v).cmd = s.cmd := rfl
@[simp] theorem State.setCtrl_uw (v : Byte) : (s.setCtrl v).uw = s.uw := rfl
@[simp] theorem State.setCtrl_schedule (v : Byte) : (s.setCtrl v).schedule = s.schedule := rfl
@[simp] theorem State.setCtrl_draws (v : Byte) : (s.setCtrl v).draws = s.draws := rfl

/-! ## State.setSr -/

@[simp] theorem State.setSr_ph (v : Byte) : (s.setSr v).ph = s.ph := rfl
@[simp] theorem State.setSr_us (v : Byte) : (s.setSr v).us = s.us := rfl
@[simp] theorem State.setSr_op (v : Byte) : (s.setSr v).op = s.op := rfl
@[simp] theorem State.setSr_sla (v : Byte) : (s.setSr v).sla = s.sla := rfl
@[simp] theorem State.setSr_reg (v : Byte) : (s.setSr v).reg = s.reg := rfl
@[simp] theorem State.setSr_val (v : Byte) : (s.setSr v).val = s.val := rfl
@[simp] theorem State.setSr_divr (v : Byte) : (s.setSr v).divr = s.divr := rfl
@[simp] theorem State.setSr_len (v : Byte) : (s.setSr v).len = s.len := rfl
@[simp] theorem State.setSr_idx (v : Byte) : (s.setSr v).idx = s.idx := rfl
@[simp] theorem State.setSr_stLatch (v : Byte) : (s.setSr v).stLatch = s.stLatch := rfl
@[simp] theorem State.setSr_buf (v : Byte) : (s.setSr v).buf = s.buf := rfl
@[simp] theorem State.setSr_result (v : Byte) : (s.setSr v).result = s.result := rfl
@[simp] theorem State.setSr_resultValid (v : Byte) : (s.setSr v).resultValid = s.resultValid := rfl
@[simp] theorem State.setSr_count (v : Byte) : (s.setSr v).count = s.count := rfl
@[simp] theorem State.setSr_initialized (v : Byte) : (s.setSr v).initialized = s.initialized := rfl
@[simp] theorem State.setSr_ctrl (v : Byte) : (s.setSr v).ctrl = s.ctrl := rfl
@[simp] theorem State.setSr_sr (v : Byte) : (s.setSr v).sr = v := rfl
@[simp] theorem State.setSr_dr (v : Byte) : (s.setSr v).dr = s.dr := rfl
@[simp] theorem State.setSr_br (v : Byte) : (s.setSr v).br = s.br := rfl
@[simp] theorem State.setSr_trace (v : Byte) : (s.setSr v).trace = s.trace := rfl
@[simp] theorem State.setSr_inflight (v : Byte) : (s.setSr v).inflight = s.inflight := rfl
@[simp] theorem State.setSr_stopBusy (v : Byte) : (s.setSr v).stopBusy = s.stopBusy := rfl
@[simp] theorem State.setSr_busOwned (v : Byte) : (s.setSr v).busOwned = s.busOwned := rfl
@[simp] theorem State.setSr_slave (v : Byte) : (s.setSr v).slave = s.slave := rfl
@[simp] theorem State.setSr_cmd (v : Byte) : (s.setSr v).cmd = s.cmd := rfl
@[simp] theorem State.setSr_uw (v : Byte) : (s.setSr v).uw = s.uw := rfl
@[simp] theorem State.setSr_schedule (v : Byte) : (s.setSr v).schedule = s.schedule := rfl
@[simp] theorem State.setSr_draws (v : Byte) : (s.setSr v).draws = s.draws := rfl

/-! ## State.setDr -/

@[simp] theorem State.setDr_ph (v : Byte) : (s.setDr v).ph = s.ph := rfl
@[simp] theorem State.setDr_us (v : Byte) : (s.setDr v).us = s.us := rfl
@[simp] theorem State.setDr_op (v : Byte) : (s.setDr v).op = s.op := rfl
@[simp] theorem State.setDr_sla (v : Byte) : (s.setDr v).sla = s.sla := rfl
@[simp] theorem State.setDr_reg (v : Byte) : (s.setDr v).reg = s.reg := rfl
@[simp] theorem State.setDr_val (v : Byte) : (s.setDr v).val = s.val := rfl
@[simp] theorem State.setDr_divr (v : Byte) : (s.setDr v).divr = s.divr := rfl
@[simp] theorem State.setDr_len (v : Byte) : (s.setDr v).len = s.len := rfl
@[simp] theorem State.setDr_idx (v : Byte) : (s.setDr v).idx = s.idx := rfl
@[simp] theorem State.setDr_stLatch (v : Byte) : (s.setDr v).stLatch = s.stLatch := rfl
@[simp] theorem State.setDr_buf (v : Byte) : (s.setDr v).buf = s.buf := rfl
@[simp] theorem State.setDr_result (v : Byte) : (s.setDr v).result = s.result := rfl
@[simp] theorem State.setDr_resultValid (v : Byte) : (s.setDr v).resultValid = s.resultValid := rfl
@[simp] theorem State.setDr_count (v : Byte) : (s.setDr v).count = s.count := rfl
@[simp] theorem State.setDr_initialized (v : Byte) : (s.setDr v).initialized = s.initialized := rfl
@[simp] theorem State.setDr_ctrl (v : Byte) : (s.setDr v).ctrl = s.ctrl := rfl
@[simp] theorem State.setDr_sr (v : Byte) : (s.setDr v).sr = s.sr := rfl
@[simp] theorem State.setDr_dr (v : Byte) : (s.setDr v).dr = v := rfl
@[simp] theorem State.setDr_br (v : Byte) : (s.setDr v).br = s.br := rfl
@[simp] theorem State.setDr_trace (v : Byte) : (s.setDr v).trace = s.trace := rfl
@[simp] theorem State.setDr_inflight (v : Byte) : (s.setDr v).inflight = s.inflight := rfl
@[simp] theorem State.setDr_stopBusy (v : Byte) : (s.setDr v).stopBusy = s.stopBusy := rfl
@[simp] theorem State.setDr_busOwned (v : Byte) : (s.setDr v).busOwned = s.busOwned := rfl
@[simp] theorem State.setDr_slave (v : Byte) : (s.setDr v).slave = s.slave := rfl
@[simp] theorem State.setDr_cmd (v : Byte) : (s.setDr v).cmd = s.cmd := rfl
@[simp] theorem State.setDr_uw (v : Byte) : (s.setDr v).uw = s.uw := rfl
@[simp] theorem State.setDr_schedule (v : Byte) : (s.setDr v).schedule = s.schedule := rfl
@[simp] theorem State.setDr_draws (v : Byte) : (s.setDr v).draws = s.draws := rfl

/-! ## State.setBr -/

@[simp] theorem State.setBr_ph (v : Byte) : (s.setBr v).ph = s.ph := rfl
@[simp] theorem State.setBr_us (v : Byte) : (s.setBr v).us = s.us := rfl
@[simp] theorem State.setBr_op (v : Byte) : (s.setBr v).op = s.op := rfl
@[simp] theorem State.setBr_sla (v : Byte) : (s.setBr v).sla = s.sla := rfl
@[simp] theorem State.setBr_reg (v : Byte) : (s.setBr v).reg = s.reg := rfl
@[simp] theorem State.setBr_val (v : Byte) : (s.setBr v).val = s.val := rfl
@[simp] theorem State.setBr_divr (v : Byte) : (s.setBr v).divr = s.divr := rfl
@[simp] theorem State.setBr_len (v : Byte) : (s.setBr v).len = s.len := rfl
@[simp] theorem State.setBr_idx (v : Byte) : (s.setBr v).idx = s.idx := rfl
@[simp] theorem State.setBr_stLatch (v : Byte) : (s.setBr v).stLatch = s.stLatch := rfl
@[simp] theorem State.setBr_buf (v : Byte) : (s.setBr v).buf = s.buf := rfl
@[simp] theorem State.setBr_result (v : Byte) : (s.setBr v).result = s.result := rfl
@[simp] theorem State.setBr_resultValid (v : Byte) : (s.setBr v).resultValid = s.resultValid := rfl
@[simp] theorem State.setBr_count (v : Byte) : (s.setBr v).count = s.count := rfl
@[simp] theorem State.setBr_initialized (v : Byte) : (s.setBr v).initialized = s.initialized := rfl
@[simp] theorem State.setBr_ctrl (v : Byte) : (s.setBr v).ctrl = s.ctrl := rfl
@[simp] theorem State.setBr_sr (v : Byte) : (s.setBr v).sr = s.sr := rfl
@[simp] theorem State.setBr_dr (v : Byte) : (s.setBr v).dr = s.dr := rfl
@[simp] theorem State.setBr_br (v : Byte) : (s.setBr v).br = v := rfl
@[simp] theorem State.setBr_trace (v : Byte) : (s.setBr v).trace = s.trace := rfl
@[simp] theorem State.setBr_inflight (v : Byte) : (s.setBr v).inflight = s.inflight := rfl
@[simp] theorem State.setBr_stopBusy (v : Byte) : (s.setBr v).stopBusy = s.stopBusy := rfl
@[simp] theorem State.setBr_busOwned (v : Byte) : (s.setBr v).busOwned = s.busOwned := rfl
@[simp] theorem State.setBr_slave (v : Byte) : (s.setBr v).slave = s.slave := rfl
@[simp] theorem State.setBr_cmd (v : Byte) : (s.setBr v).cmd = s.cmd := rfl
@[simp] theorem State.setBr_uw (v : Byte) : (s.setBr v).uw = s.uw := rfl
@[simp] theorem State.setBr_schedule (v : Byte) : (s.setBr v).schedule = s.schedule := rfl
@[simp] theorem State.setBr_draws (v : Byte) : (s.setBr v).draws = s.draws := rfl

/-! ## State.addTrace -/

@[simp] theorem State.addTrace_ph (v : TraceEntry) : (s.addTrace v).ph = s.ph := rfl
@[simp] theorem State.addTrace_us (v : TraceEntry) : (s.addTrace v).us = s.us := rfl
@[simp] theorem State.addTrace_op (v : TraceEntry) : (s.addTrace v).op = s.op := rfl
@[simp] theorem State.addTrace_sla (v : TraceEntry) : (s.addTrace v).sla = s.sla := rfl
@[simp] theorem State.addTrace_reg (v : TraceEntry) : (s.addTrace v).reg = s.reg := rfl
@[simp] theorem State.addTrace_val (v : TraceEntry) : (s.addTrace v).val = s.val := rfl
@[simp] theorem State.addTrace_divr (v : TraceEntry) : (s.addTrace v).divr = s.divr := rfl
@[simp] theorem State.addTrace_len (v : TraceEntry) : (s.addTrace v).len = s.len := rfl
@[simp] theorem State.addTrace_idx (v : TraceEntry) : (s.addTrace v).idx = s.idx := rfl
@[simp] theorem State.addTrace_stLatch (v : TraceEntry) : (s.addTrace v).stLatch = s.stLatch := rfl
@[simp] theorem State.addTrace_buf (v : TraceEntry) : (s.addTrace v).buf = s.buf := rfl
@[simp] theorem State.addTrace_result (v : TraceEntry) : (s.addTrace v).result = s.result := rfl
@[simp] theorem State.addTrace_resultValid (v : TraceEntry) : (s.addTrace v).resultValid = s.resultValid := rfl
@[simp] theorem State.addTrace_count (v : TraceEntry) : (s.addTrace v).count = s.count := rfl
@[simp] theorem State.addTrace_initialized (v : TraceEntry) : (s.addTrace v).initialized = s.initialized := rfl
@[simp] theorem State.addTrace_ctrl (v : TraceEntry) : (s.addTrace v).ctrl = s.ctrl := rfl
@[simp] theorem State.addTrace_sr (v : TraceEntry) : (s.addTrace v).sr = s.sr := rfl
@[simp] theorem State.addTrace_dr (v : TraceEntry) : (s.addTrace v).dr = s.dr := rfl
@[simp] theorem State.addTrace_br (v : TraceEntry) : (s.addTrace v).br = s.br := rfl
@[simp] theorem State.addTrace_trace (v : TraceEntry) : (s.addTrace v).trace = s.trace ++ [v] := rfl
@[simp] theorem State.addTrace_inflight (v : TraceEntry) : (s.addTrace v).inflight = s.inflight := rfl
@[simp] theorem State.addTrace_stopBusy (v : TraceEntry) : (s.addTrace v).stopBusy = s.stopBusy := rfl
@[simp] theorem State.addTrace_busOwned (v : TraceEntry) : (s.addTrace v).busOwned = s.busOwned := rfl
@[simp] theorem State.addTrace_slave (v : TraceEntry) : (s.addTrace v).slave = s.slave := rfl
@[simp] theorem State.addTrace_cmd (v : TraceEntry) : (s.addTrace v).cmd = s.cmd := rfl
@[simp] theorem State.addTrace_uw (v : TraceEntry) : (s.addTrace v).uw = s.uw := rfl
@[simp] theorem State.addTrace_schedule (v : TraceEntry) : (s.addTrace v).schedule = s.schedule := rfl
@[simp] theorem State.addTrace_draws (v : TraceEntry) : (s.addTrace v).draws = s.draws := rfl

/-! ## State.setInflight -/

@[simp] theorem State.setInflight_ph (v : Option InFlight) : (s.setInflight v).ph = s.ph := rfl
@[simp] theorem State.setInflight_us (v : Option InFlight) : (s.setInflight v).us = s.us := rfl
@[simp] theorem State.setInflight_op (v : Option InFlight) : (s.setInflight v).op = s.op := rfl
@[simp] theorem State.setInflight_sla (v : Option InFlight) : (s.setInflight v).sla = s.sla := rfl
@[simp] theorem State.setInflight_reg (v : Option InFlight) : (s.setInflight v).reg = s.reg := rfl
@[simp] theorem State.setInflight_val (v : Option InFlight) : (s.setInflight v).val = s.val := rfl
@[simp] theorem State.setInflight_divr (v : Option InFlight) : (s.setInflight v).divr = s.divr := rfl
@[simp] theorem State.setInflight_len (v : Option InFlight) : (s.setInflight v).len = s.len := rfl
@[simp] theorem State.setInflight_idx (v : Option InFlight) : (s.setInflight v).idx = s.idx := rfl
@[simp] theorem State.setInflight_stLatch (v : Option InFlight) : (s.setInflight v).stLatch = s.stLatch := rfl
@[simp] theorem State.setInflight_buf (v : Option InFlight) : (s.setInflight v).buf = s.buf := rfl
@[simp] theorem State.setInflight_result (v : Option InFlight) : (s.setInflight v).result = s.result := rfl
@[simp] theorem State.setInflight_resultValid (v : Option InFlight) : (s.setInflight v).resultValid = s.resultValid := rfl
@[simp] theorem State.setInflight_count (v : Option InFlight) : (s.setInflight v).count = s.count := rfl
@[simp] theorem State.setInflight_initialized (v : Option InFlight) : (s.setInflight v).initialized = s.initialized := rfl
@[simp] theorem State.setInflight_ctrl (v : Option InFlight) : (s.setInflight v).ctrl = s.ctrl := rfl
@[simp] theorem State.setInflight_sr (v : Option InFlight) : (s.setInflight v).sr = s.sr := rfl
@[simp] theorem State.setInflight_dr (v : Option InFlight) : (s.setInflight v).dr = s.dr := rfl
@[simp] theorem State.setInflight_br (v : Option InFlight) : (s.setInflight v).br = s.br := rfl
@[simp] theorem State.setInflight_trace (v : Option InFlight) : (s.setInflight v).trace = s.trace := rfl
@[simp] theorem State.setInflight_inflight (v : Option InFlight) : (s.setInflight v).inflight = v := rfl
@[simp] theorem State.setInflight_stopBusy (v : Option InFlight) : (s.setInflight v).stopBusy = s.stopBusy := rfl
@[simp] theorem State.setInflight_busOwned (v : Option InFlight) : (s.setInflight v).busOwned = s.busOwned := rfl
@[simp] theorem State.setInflight_slave (v : Option InFlight) : (s.setInflight v).slave = s.slave := rfl
@[simp] theorem State.setInflight_cmd (v : Option InFlight) : (s.setInflight v).cmd = s.cmd := rfl
@[simp] theorem State.setInflight_uw (v : Option InFlight) : (s.setInflight v).uw = s.uw := rfl
@[simp] theorem State.setInflight_schedule (v : Option InFlight) : (s.setInflight v).schedule = s.schedule := rfl
@[simp] theorem State.setInflight_draws (v : Option InFlight) : (s.setInflight v).draws = s.draws := rfl

/-! ## State.setStopBusy -/

@[simp] theorem State.setStopBusy_ph (v : Bool) : (s.setStopBusy v).ph = s.ph := rfl
@[simp] theorem State.setStopBusy_us (v : Bool) : (s.setStopBusy v).us = s.us := rfl
@[simp] theorem State.setStopBusy_op (v : Bool) : (s.setStopBusy v).op = s.op := rfl
@[simp] theorem State.setStopBusy_sla (v : Bool) : (s.setStopBusy v).sla = s.sla := rfl
@[simp] theorem State.setStopBusy_reg (v : Bool) : (s.setStopBusy v).reg = s.reg := rfl
@[simp] theorem State.setStopBusy_val (v : Bool) : (s.setStopBusy v).val = s.val := rfl
@[simp] theorem State.setStopBusy_divr (v : Bool) : (s.setStopBusy v).divr = s.divr := rfl
@[simp] theorem State.setStopBusy_len (v : Bool) : (s.setStopBusy v).len = s.len := rfl
@[simp] theorem State.setStopBusy_idx (v : Bool) : (s.setStopBusy v).idx = s.idx := rfl
@[simp] theorem State.setStopBusy_stLatch (v : Bool) : (s.setStopBusy v).stLatch = s.stLatch := rfl
@[simp] theorem State.setStopBusy_buf (v : Bool) : (s.setStopBusy v).buf = s.buf := rfl
@[simp] theorem State.setStopBusy_result (v : Bool) : (s.setStopBusy v).result = s.result := rfl
@[simp] theorem State.setStopBusy_resultValid (v : Bool) : (s.setStopBusy v).resultValid = s.resultValid := rfl
@[simp] theorem State.setStopBusy_count (v : Bool) : (s.setStopBusy v).count = s.count := rfl
@[simp] theorem State.setStopBusy_initialized (v : Bool) : (s.setStopBusy v).initialized = s.initialized := rfl
@[simp] theorem State.setStopBusy_ctrl (v : Bool) : (s.setStopBusy v).ctrl = s.ctrl := rfl
@[simp] theorem State.setStopBusy_sr (v : Bool) : (s.setStopBusy v).sr = s.sr := rfl
@[simp] theorem State.setStopBusy_dr (v : Bool) : (s.setStopBusy v).dr = s.dr := rfl
@[simp] theorem State.setStopBusy_br (v : Bool) : (s.setStopBusy v).br = s.br := rfl
@[simp] theorem State.setStopBusy_trace (v : Bool) : (s.setStopBusy v).trace = s.trace := rfl
@[simp] theorem State.setStopBusy_inflight (v : Bool) : (s.setStopBusy v).inflight = s.inflight := rfl
@[simp] theorem State.setStopBusy_stopBusy (v : Bool) : (s.setStopBusy v).stopBusy = v := rfl
@[simp] theorem State.setStopBusy_busOwned (v : Bool) : (s.setStopBusy v).busOwned = s.busOwned := rfl
@[simp] theorem State.setStopBusy_slave (v : Bool) : (s.setStopBusy v).slave = s.slave := rfl
@[simp] theorem State.setStopBusy_cmd (v : Bool) : (s.setStopBusy v).cmd = s.cmd := rfl
@[simp] theorem State.setStopBusy_uw (v : Bool) : (s.setStopBusy v).uw = s.uw := rfl
@[simp] theorem State.setStopBusy_schedule (v : Bool) : (s.setStopBusy v).schedule = s.schedule := rfl
@[simp] theorem State.setStopBusy_draws (v : Bool) : (s.setStopBusy v).draws = s.draws := rfl

/-! ## State.setBusOwned -/

@[simp] theorem State.setBusOwned_ph (v : Bool) : (s.setBusOwned v).ph = s.ph := rfl
@[simp] theorem State.setBusOwned_us (v : Bool) : (s.setBusOwned v).us = s.us := rfl
@[simp] theorem State.setBusOwned_op (v : Bool) : (s.setBusOwned v).op = s.op := rfl
@[simp] theorem State.setBusOwned_sla (v : Bool) : (s.setBusOwned v).sla = s.sla := rfl
@[simp] theorem State.setBusOwned_reg (v : Bool) : (s.setBusOwned v).reg = s.reg := rfl
@[simp] theorem State.setBusOwned_val (v : Bool) : (s.setBusOwned v).val = s.val := rfl
@[simp] theorem State.setBusOwned_divr (v : Bool) : (s.setBusOwned v).divr = s.divr := rfl
@[simp] theorem State.setBusOwned_len (v : Bool) : (s.setBusOwned v).len = s.len := rfl
@[simp] theorem State.setBusOwned_idx (v : Bool) : (s.setBusOwned v).idx = s.idx := rfl
@[simp] theorem State.setBusOwned_stLatch (v : Bool) : (s.setBusOwned v).stLatch = s.stLatch := rfl
@[simp] theorem State.setBusOwned_buf (v : Bool) : (s.setBusOwned v).buf = s.buf := rfl
@[simp] theorem State.setBusOwned_result (v : Bool) : (s.setBusOwned v).result = s.result := rfl
@[simp] theorem State.setBusOwned_resultValid (v : Bool) : (s.setBusOwned v).resultValid = s.resultValid := rfl
@[simp] theorem State.setBusOwned_count (v : Bool) : (s.setBusOwned v).count = s.count := rfl
@[simp] theorem State.setBusOwned_initialized (v : Bool) : (s.setBusOwned v).initialized = s.initialized := rfl
@[simp] theorem State.setBusOwned_ctrl (v : Bool) : (s.setBusOwned v).ctrl = s.ctrl := rfl
@[simp] theorem State.setBusOwned_sr (v : Bool) : (s.setBusOwned v).sr = s.sr := rfl
@[simp] theorem State.setBusOwned_dr (v : Bool) : (s.setBusOwned v).dr = s.dr := rfl
@[simp] theorem State.setBusOwned_br (v : Bool) : (s.setBusOwned v).br = s.br := rfl
@[simp] theorem State.setBusOwned_trace (v : Bool) : (s.setBusOwned v).trace = s.trace := rfl
@[simp] theorem State.setBusOwned_inflight (v : Bool) : (s.setBusOwned v).inflight = s.inflight := rfl
@[simp] theorem State.setBusOwned_stopBusy (v : Bool) : (s.setBusOwned v).stopBusy = s.stopBusy := rfl
@[simp] theorem State.setBusOwned_busOwned (v : Bool) : (s.setBusOwned v).busOwned = v := rfl
@[simp] theorem State.setBusOwned_slave (v : Bool) : (s.setBusOwned v).slave = s.slave := rfl
@[simp] theorem State.setBusOwned_cmd (v : Bool) : (s.setBusOwned v).cmd = s.cmd := rfl
@[simp] theorem State.setBusOwned_uw (v : Bool) : (s.setBusOwned v).uw = s.uw := rfl
@[simp] theorem State.setBusOwned_schedule (v : Bool) : (s.setBusOwned v).schedule = s.schedule := rfl
@[simp] theorem State.setBusOwned_draws (v : Bool) : (s.setBusOwned v).draws = s.draws := rfl

/-! ## State.setSlave -/

@[simp] theorem State.setSlave_ph (v : Nat) : (s.setSlave v).ph = s.ph := rfl
@[simp] theorem State.setSlave_us (v : Nat) : (s.setSlave v).us = s.us := rfl
@[simp] theorem State.setSlave_op (v : Nat) : (s.setSlave v).op = s.op := rfl
@[simp] theorem State.setSlave_sla (v : Nat) : (s.setSlave v).sla = s.sla := rfl
@[simp] theorem State.setSlave_reg (v : Nat) : (s.setSlave v).reg = s.reg := rfl
@[simp] theorem State.setSlave_val (v : Nat) : (s.setSlave v).val = s.val := rfl
@[simp] theorem State.setSlave_divr (v : Nat) : (s.setSlave v).divr = s.divr := rfl
@[simp] theorem State.setSlave_len (v : Nat) : (s.setSlave v).len = s.len := rfl
@[simp] theorem State.setSlave_idx (v : Nat) : (s.setSlave v).idx = s.idx := rfl
@[simp] theorem State.setSlave_stLatch (v : Nat) : (s.setSlave v).stLatch = s.stLatch := rfl
@[simp] theorem State.setSlave_buf (v : Nat) : (s.setSlave v).buf = s.buf := rfl
@[simp] theorem State.setSlave_result (v : Nat) : (s.setSlave v).result = s.result := rfl
@[simp] theorem State.setSlave_resultValid (v : Nat) : (s.setSlave v).resultValid = s.resultValid := rfl
@[simp] theorem State.setSlave_count (v : Nat) : (s.setSlave v).count = s.count := rfl
@[simp] theorem State.setSlave_initialized (v : Nat) : (s.setSlave v).initialized = s.initialized := rfl
@[simp] theorem State.setSlave_ctrl (v : Nat) : (s.setSlave v).ctrl = s.ctrl := rfl
@[simp] theorem State.setSlave_sr (v : Nat) : (s.setSlave v).sr = s.sr := rfl
@[simp] theorem State.setSlave_dr (v : Nat) : (s.setSlave v).dr = s.dr := rfl
@[simp] theorem State.setSlave_br (v : Nat) : (s.setSlave v).br = s.br := rfl
@[simp] theorem State.setSlave_trace (v : Nat) : (s.setSlave v).trace = s.trace := rfl
@[simp] theorem State.setSlave_inflight (v : Nat) : (s.setSlave v).inflight = s.inflight := rfl
@[simp] theorem State.setSlave_stopBusy (v : Nat) : (s.setSlave v).stopBusy = s.stopBusy := rfl
@[simp] theorem State.setSlave_busOwned (v : Nat) : (s.setSlave v).busOwned = s.busOwned := rfl
@[simp] theorem State.setSlave_slave (v : Nat) : (s.setSlave v).slave = v := rfl
@[simp] theorem State.setSlave_cmd (v : Nat) : (s.setSlave v).cmd = s.cmd := rfl
@[simp] theorem State.setSlave_uw (v : Nat) : (s.setSlave v).uw = s.uw := rfl
@[simp] theorem State.setSlave_schedule (v : Nat) : (s.setSlave v).schedule = s.schedule := rfl
@[simp] theorem State.setSlave_draws (v : Nat) : (s.setSlave v).draws = s.draws := rfl

/-! ## State.setCmd -/

@[simp] theorem State.setCmd_ph (v : Option CmdWord) : (s.setCmd v).ph = s.ph := rfl
@[simp] theorem State.setCmd_us (v : Option CmdWord) : (s.setCmd v).us = s.us := rfl
@[simp] theorem State.setCmd_op (v : Option CmdWord) : (s.setCmd v).op = s.op := rfl
@[simp] theorem State.setCmd_sla (v : Option CmdWord) : (s.setCmd v).sla = s.sla := rfl
@[simp] theorem State.setCmd_reg (v : Option CmdWord) : (s.setCmd v).reg = s.reg := rfl
@[simp] theorem State.setCmd_val (v : Option CmdWord) : (s.setCmd v).val = s.val := rfl
@[simp] theorem State.setCmd_divr (v : Option CmdWord) : (s.setCmd v).divr = s.divr := rfl
@[simp] theorem State.setCmd_len (v : Option CmdWord) : (s.setCmd v).len = s.len := rfl
@[simp] theorem State.setCmd_idx (v : Option CmdWord) : (s.setCmd v).idx = s.idx := rfl
@[simp] theorem State.setCmd_stLatch (v : Option CmdWord) : (s.setCmd v).stLatch = s.stLatch := rfl
@[simp] theorem State.setCmd_buf (v : Option CmdWord) : (s.setCmd v).buf = s.buf := rfl
@[simp] theorem State.setCmd_result (v : Option CmdWord) : (s.setCmd v).result = s.result := rfl
@[simp] theorem State.setCmd_resultValid (v : Option CmdWord) : (s.setCmd v).resultValid = s.resultValid := rfl
@[simp] theorem State.setCmd_count (v : Option CmdWord) : (s.setCmd v).count = s.count := rfl
@[simp] theorem State.setCmd_initialized (v : Option CmdWord) : (s.setCmd v).initialized = s.initialized := rfl
@[simp] theorem State.setCmd_ctrl (v : Option CmdWord) : (s.setCmd v).ctrl = s.ctrl := rfl
@[simp] theorem State.setCmd_sr (v : Option CmdWord) : (s.setCmd v).sr = s.sr := rfl
@[simp] theorem State.setCmd_dr (v : Option CmdWord) : (s.setCmd v).dr = s.dr := rfl
@[simp] theorem State.setCmd_br (v : Option CmdWord) : (s.setCmd v).br = s.br := rfl
@[simp] theorem State.setCmd_trace (v : Option CmdWord) : (s.setCmd v).trace = s.trace := rfl
@[simp] theorem State.setCmd_inflight (v : Option CmdWord) : (s.setCmd v).inflight = s.inflight := rfl
@[simp] theorem State.setCmd_stopBusy (v : Option CmdWord) : (s.setCmd v).stopBusy = s.stopBusy := rfl
@[simp] theorem State.setCmd_busOwned (v : Option CmdWord) : (s.setCmd v).busOwned = s.busOwned := rfl
@[simp] theorem State.setCmd_slave (v : Option CmdWord) : (s.setCmd v).slave = s.slave := rfl
@[simp] theorem State.setCmd_cmd (v : Option CmdWord) : (s.setCmd v).cmd = v := rfl
@[simp] theorem State.setCmd_uw (v : Option CmdWord) : (s.setCmd v).uw = s.uw := rfl
@[simp] theorem State.setCmd_schedule (v : Option CmdWord) : (s.setCmd v).schedule = s.schedule := rfl
@[simp] theorem State.setCmd_draws (v : Option CmdWord) : (s.setCmd v).draws = s.draws := rfl

/-! ## State.setUw -/

@[simp] theorem State.setUw_ph (v : Option MicroWord) : (s.setUw v).ph = s.ph := rfl
@[simp] theorem State.setUw_us (v : Option MicroWord) : (s.setUw v).us = s.us := rfl
@[simp] theorem State.setUw_op (v : Option MicroWord) : (s.setUw v).op = s.op := rfl
@[simp] theorem State.setUw_sla (v : Option MicroWord) : (s.setUw v).sla = s.sla := rfl
@[simp] theorem State.setUw_reg (v : Option MicroWord) : (s.setUw v).reg = s.reg := rfl
@[simp] theorem State.setUw_val (v : Option MicroWord) : (s.setUw v).val = s.val := rfl
@[simp] theorem State.setUw_divr (v : Option MicroWord) : (s.setUw v).divr = s.divr := rfl
@[simp] theorem State.setUw_len (v : Option MicroWord) : (s.setUw v).len = s.len := rfl
@[simp] theorem State.setUw_idx (v : Option MicroWord) : (s.setUw v).idx = s.idx := rfl
@[simp] theorem State.setUw_stLatch (v : Option MicroWord) : (s.setUw v).stLatch = s.stLatch := rfl
@[simp] theorem State.setUw_buf (v : Option MicroWord) : (s.setUw v).buf = s.buf := rfl
@[simp] theorem State.setUw_result (v : Option MicroWord) : (s.setUw v).result = s.result := rfl
@[simp] theorem State.setUw_resultValid (v : Option MicroWord) : (s.setUw v).resultValid = s.resultValid := rfl
@[simp] theorem State.setUw_count (v : Option MicroWord) : (s.setUw v).count = s.count := rfl
@[simp] theorem State.setUw_initialized (v : Option MicroWord) : (s.setUw v).initialized = s.initialized := rfl
@[simp] theorem State.setUw_ctrl (v : Option MicroWord) : (s.setUw v).ctrl = s.ctrl := rfl
@[simp] theorem State.setUw_sr (v : Option MicroWord) : (s.setUw v).sr = s.sr := rfl
@[simp] theorem State.setUw_dr (v : Option MicroWord) : (s.setUw v).dr = s.dr := rfl
@[simp] theorem State.setUw_br (v : Option MicroWord) : (s.setUw v).br = s.br := rfl
@[simp] theorem State.setUw_trace (v : Option MicroWord) : (s.setUw v).trace = s.trace := rfl
@[simp] theorem State.setUw_inflight (v : Option MicroWord) : (s.setUw v).inflight = s.inflight := rfl
@[simp] theorem State.setUw_stopBusy (v : Option MicroWord) : (s.setUw v).stopBusy = s.stopBusy := rfl
@[simp] theorem State.setUw_busOwned (v : Option MicroWord) : (s.setUw v).busOwned = s.busOwned := rfl
@[simp] theorem State.setUw_slave (v : Option MicroWord) : (s.setUw v).slave = s.slave := rfl
@[simp] theorem State.setUw_cmd (v : Option MicroWord) : (s.setUw v).cmd = s.cmd := rfl
@[simp] theorem State.setUw_uw (v : Option MicroWord) : (s.setUw v).uw = v := rfl
@[simp] theorem State.setUw_schedule (v : Option MicroWord) : (s.setUw v).schedule = s.schedule := rfl
@[simp] theorem State.setUw_draws (v : Option MicroWord) : (s.setUw v).draws = s.draws := rfl

/-! ## State.setSchedule -/

@[simp] theorem State.setSchedule_ph (v : List Move) : (s.setSchedule v).ph = s.ph := rfl
@[simp] theorem State.setSchedule_us (v : List Move) : (s.setSchedule v).us = s.us := rfl
@[simp] theorem State.setSchedule_op (v : List Move) : (s.setSchedule v).op = s.op := rfl
@[simp] theorem State.setSchedule_sla (v : List Move) : (s.setSchedule v).sla = s.sla := rfl
@[simp] theorem State.setSchedule_reg (v : List Move) : (s.setSchedule v).reg = s.reg := rfl
@[simp] theorem State.setSchedule_val (v : List Move) : (s.setSchedule v).val = s.val := rfl
@[simp] theorem State.setSchedule_divr (v : List Move) : (s.setSchedule v).divr = s.divr := rfl
@[simp] theorem State.setSchedule_len (v : List Move) : (s.setSchedule v).len = s.len := rfl
@[simp] theorem State.setSchedule_idx (v : List Move) : (s.setSchedule v).idx = s.idx := rfl
@[simp] theorem State.setSchedule_stLatch (v : List Move) : (s.setSchedule v).stLatch = s.stLatch := rfl
@[simp] theorem State.setSchedule_buf (v : List Move) : (s.setSchedule v).buf = s.buf := rfl
@[simp] theorem State.setSchedule_result (v : List Move) : (s.setSchedule v).result = s.result := rfl
@[simp] theorem State.setSchedule_resultValid (v : List Move) : (s.setSchedule v).resultValid = s.resultValid := rfl
@[simp] theorem State.setSchedule_count (v : List Move) : (s.setSchedule v).count = s.count := rfl
@[simp] theorem State.setSchedule_initialized (v : List Move) : (s.setSchedule v).initialized = s.initialized := rfl
@[simp] theorem State.setSchedule_ctrl (v : List Move) : (s.setSchedule v).ctrl = s.ctrl := rfl
@[simp] theorem State.setSchedule_sr (v : List Move) : (s.setSchedule v).sr = s.sr := rfl
@[simp] theorem State.setSchedule_dr (v : List Move) : (s.setSchedule v).dr = s.dr := rfl
@[simp] theorem State.setSchedule_br (v : List Move) : (s.setSchedule v).br = s.br := rfl
@[simp] theorem State.setSchedule_trace (v : List Move) : (s.setSchedule v).trace = s.trace := rfl
@[simp] theorem State.setSchedule_inflight (v : List Move) : (s.setSchedule v).inflight = s.inflight := rfl
@[simp] theorem State.setSchedule_stopBusy (v : List Move) : (s.setSchedule v).stopBusy = s.stopBusy := rfl
@[simp] theorem State.setSchedule_busOwned (v : List Move) : (s.setSchedule v).busOwned = s.busOwned := rfl
@[simp] theorem State.setSchedule_slave (v : List Move) : (s.setSchedule v).slave = s.slave := rfl
@[simp] theorem State.setSchedule_cmd (v : List Move) : (s.setSchedule v).cmd = s.cmd := rfl
@[simp] theorem State.setSchedule_uw (v : List Move) : (s.setSchedule v).uw = s.uw := rfl
@[simp] theorem State.setSchedule_schedule (v : List Move) : (s.setSchedule v).schedule = v := rfl
@[simp] theorem State.setSchedule_draws (v : List Move) : (s.setSchedule v).draws = s.draws := rfl

/-! ## State.nextDraw -/

@[simp] theorem State.nextDraw_ph : (s.nextDraw).ph = s.ph := rfl
@[simp] theorem State.nextDraw_us : (s.nextDraw).us = s.us := rfl
@[simp] theorem State.nextDraw_op : (s.nextDraw).op = s.op := rfl
@[simp] theorem State.nextDraw_sla : (s.nextDraw).sla = s.sla := rfl
@[simp] theorem State.nextDraw_reg : (s.nextDraw).reg = s.reg := rfl
@[simp] theorem State.nextDraw_val : (s.nextDraw).val = s.val := rfl
@[simp] theorem State.nextDraw_divr : (s.nextDraw).divr = s.divr := rfl
@[simp] theorem State.nextDraw_len : (s.nextDraw).len = s.len := rfl
@[simp] theorem State.nextDraw_idx : (s.nextDraw).idx = s.idx := rfl
@[simp] theorem State.nextDraw_stLatch : (s.nextDraw).stLatch = s.stLatch := rfl
@[simp] theorem State.nextDraw_buf : (s.nextDraw).buf = s.buf := rfl
@[simp] theorem State.nextDraw_result : (s.nextDraw).result = s.result := rfl
@[simp] theorem State.nextDraw_resultValid : (s.nextDraw).resultValid = s.resultValid := rfl
@[simp] theorem State.nextDraw_count : (s.nextDraw).count = s.count := rfl
@[simp] theorem State.nextDraw_initialized : (s.nextDraw).initialized = s.initialized := rfl
@[simp] theorem State.nextDraw_ctrl : (s.nextDraw).ctrl = s.ctrl := rfl
@[simp] theorem State.nextDraw_sr : (s.nextDraw).sr = s.sr := rfl
@[simp] theorem State.nextDraw_dr : (s.nextDraw).dr = s.dr := rfl
@[simp] theorem State.nextDraw_br : (s.nextDraw).br = s.br := rfl
@[simp] theorem State.nextDraw_trace : (s.nextDraw).trace = s.trace := rfl
@[simp] theorem State.nextDraw_inflight : (s.nextDraw).inflight = s.inflight := rfl
@[simp] theorem State.nextDraw_stopBusy : (s.nextDraw).stopBusy = s.stopBusy := rfl
@[simp] theorem State.nextDraw_busOwned : (s.nextDraw).busOwned = s.busOwned := rfl
@[simp] theorem State.nextDraw_slave : (s.nextDraw).slave = s.slave := rfl
@[simp] theorem State.nextDraw_cmd : (s.nextDraw).cmd = s.cmd := rfl
@[simp] theorem State.nextDraw_uw : (s.nextDraw).uw = s.uw := rfl
@[simp] theorem State.nextDraw_schedule : (s.nextDraw).schedule = s.schedule := rfl
@[simp] theorem State.nextDraw_draws : (s.nextDraw).draws = s.draws + 1 := rfl

end Sys2Proof.Machine
end

