-- ==== Sys2Proof/Laws/Ops.lean ====
section
/-! SUPPORT. What each shared operation can do, said once. -/

namespace Sys2Proof.Machine

/-- Everything `respond` does (R12). -/
theorem respond_eq (k : Result) (c : Byte) (s : State) :
    respond k c s =
      { s with result := k, count := c, resultValid := true, ph := .idle, us := .cfg } := rfl

/-- Everything an abort does (R157, R214). -/
theorem raiseError_eq (k : Result) (s : State) :
    raiseError k s =
      { s with
        result := k, count := 0#8, resultValid := true, ph := .idle, us := .cfg
        busOwned := Config.freeBusOwned s.draws, slave := Config.freeSlave s.draws
        draws := s.draws + 1 } := by
  apply State.ext <;> simp [raiseError, respond, disturbSlave]

/-- Everything the launch of a START does (R72). -/
theorem launch_start (s : State) :
    launch .start s = { s with inflight := some .start, trace := s.trace ++ [.start] } := rfl

/-- Everything the launch of a TX does (R72). -/
theorem launch_tx (s : State) :
    launch .tx s = { s with inflight := some (.tx s.dr), trace := s.trace ++ [.tx s.dr] } := rfl

/-- Everything the launch of an RX does (R72, R76). -/
theorem launch_rx (s : State) :
    launch .rx s =
      { s with
        inflight := some (.rx (ctrlField .ack s.ctrl))
        trace := s.trace ++ [.rx (ctrlField .ack s.ctrl)] } := rfl

/-- Everything the launch of a STOP does (R72). -/
theorem launch_stop (s : State) :
    launch .stop s = { s with stopBusy := true, trace := s.trace ++ [.stop] } := rfl

@[simp] theorem memWrite_br (v : Byte) (s : State) :
    memWrite CtlReg.br.offset 1 v s = .ok (s.setBr v) := rfl

@[simp] theorem memWrite_dr (v : Byte) (s : State) :
    memWrite CtlReg.dr.offset 1 v s = .ok (s.setDr v) := rfl

@[simp] theorem memWrite_ctrl (v : Byte) (s : State) :
    memWrite CtlReg.ctrl.offset 1 v s = writeCtrl v s := rfl

@[simp] theorem memRead_ctrl (s : State) :
    memRead CtlReg.ctrl.offset 1 s = .ok (s.ctrl &&& ctrlUsedMask, s) := rfl

@[simp] theorem memRead_sr (s : State) : memRead CtlReg.sr.offset 1 s = .ok (readSr s) := rfl

@[simp] theorem memRead_dr (s : State) : memRead CtlReg.dr.offset 1 s = .ok (readDr s) := rfl

/-- A `CTRL` write without `INT` launches nothing (R64, R247). -/
theorem writeCtrl_plain {v : Byte} (h : ctrlInt v = false) (s : State) :
    writeCtrl v s = .ok (s.setCtrl (storeCtrl s.ctrl v)) := by
  simp [writeCtrl, h]

/-- A `CTRL` write with `INT` clears the flag and launches the phase's primitive (R65, R126). -/
theorem writeCtrl_launch {v : Byte} (h : ctrlInt v = true) {s : State} {k : PrimKind}
    (hk : s.ph.kind = some k) :
    writeCtrl v s = .ok (launch k (s.setCtrl (storeCtrl s.ctrl v))) := by
  simp [writeCtrl, h, hk]

/-- `initialize`'s `CTRL` write: `0x44` over whatever the fields were, the flag kept (R121). -/
theorem writeCtrl_initByte (s : State) :
    writeCtrl initByte s = .ok (s.setCtrl (storeCtrl s.ctrl initByte)) :=
  writeCtrl_plain (by decide) s

/-- Everything a field write does (R64): it never stops and changes `CTRL` alone. -/
@[simp] theorem writeField_eq (f : CtrlField) (b : Bool) (s : State) :
    writeField f b s = .ok (s.setCtrl (storeCtrl s.ctrl (fieldWriteByte f b s.ctrl))) := by
  simp [writeField, writeCtrl_plain]

/-- An access that is not one byte wide is refused (R61). -/
theorem memWrite_width {n : Nat} (h : n ≠ 1) (a : Nat) (v : Byte) (s : State) :
    memWrite a n v s = .error .controllerAccessWidth := by
  simp [memWrite, h]

/-- A read inside the window gives the register and draws nothing (R66). -/
theorem readSr_open {s : State} (h : s.windowOpen = true) : readSr s = (s.sr, s) := by
  simp [readSr, h]

/-- A read inside the window gives the register and draws nothing (R67). -/
theorem readDr_open {s : State} (h : s.windowOpen = true) : readDr s = (s.dr, s) := by
  simp [readDr, h]

/-- A read of `SR` changes nothing but the count of draws. -/
theorem readSr_state (s : State) : (readSr s).2 = s ∨ (readSr s).2 = s.nextDraw := by
  unfold readSr; split <;> simp

/-- A read of `DR` changes nothing but the count of draws. -/
theorem readDr_state (s : State) : (readDr s).2 = s ∨ (readDr s).2 = s.nextDraw := by
  unfold readDr; split <;> simp

@[simp] theorem orRefuse_ok {α : Type} (x : α) (k : α → Outcome) :
    orRefuse (.ok x) k = k x := rfl

@[simp] theorem orRefuse_error {α : Type} (e : Refusal) (k : α → Outcome) :
    orRefuse (.error e) k = .refused e := rfl

end Sys2Proof.Machine
end

