-- ==== Sys2Proof/Laws/PerInstr.lean ====
section
/-! SUPPORT. Statements made instruction by instruction about the instruction as syntax. -/

namespace Sys2Proof.Laws.RowSelects

open Sys2Proof

/-- R94, R98: the word of a well-formed instruction is selected by the opcode-table row of its own
mnemonic. -/
def Statement (i : Instr) : Prop :=
  i.wf = true → ∃ r ∈ opcodeTable, r.mnemonic = i.mnemonic ∧ r.selects (encode i) = true

/-- A device address that has 7 bits has bit 7 clear (R108). -/
theorem addr_bit7 {a : Byte} (h : validSlaveAddr a = true) : a[7] = false := by
  revert a; decide

/-- A row of the table that has the mnemonic and selects the word. -/
theorem of_row {i : Instr} (r : Row) (h : r ∈ opcodeTable) (hm : r.mnemonic = i.mnemonic)
    (hs : i.wf = true → r.selects (encode i) = true) : Statement i :=
  fun hw => ⟨r, h, hm, hs hw⟩

theorem init (d : Byte) : Statement (.init d) :=
  of_row ⟨"INIT", 32, 0xFFFFFF00, 0x00000000⟩ (by decide) rfl fun _ => by
    simp only [Row.selects, encode, packCmd, beq_self_eq_true, Bool.true_and, beq_iff_eq]
    refine BitVec.eq_of_getLsbD_eq fun i hi => ?_
    simp only [BitVec.getLsbD_and, BitVec.getLsbD_append]
    interval_cases i <;> simp

theorem writeReg (a r v : Byte) : Statement (.writeReg a r v) :=
  of_row ⟨"WRITE_REG", 32, 0xFF800000, 0x20000000⟩ (by decide) rfl fun h => by
    have h7 := addr_bit7 h
    simp only [Row.selects, encode, packCmd, beq_self_eq_true, Bool.true_and, beq_iff_eq]
    refine BitVec.eq_of_getLsbD_eq fun i hi => ?_
    simp only [BitVec.getLsbD_and, BitVec.getLsbD_append]
    interval_cases i <;> simp [h7]

theorem readReg (a r : Byte) : Statement (.readReg a r) :=
  of_row ⟨"READ_REG", 32, 0xFF8000FF, 0x40000000⟩ (by decide) rfl fun h => by
    have h7 := addr_bit7 h
    simp only [Row.selects, encode, packCmd, beq_self_eq_true, Bool.true_and, beq_iff_eq]
    refine BitVec.eq_of_getLsbD_eq fun i hi => ?_
    simp only [BitVec.getLsbD_and, BitVec.getLsbD_append]
    interval_cases i <;> simp [h7]

theorem readBurst (a r n : Byte) : Statement (.readBurst a r n) :=
  of_row ⟨"READ_BURST", 32, 0xFF800000, 0x60000000⟩ (by decide) rfl fun h => by
    have h7 := addr_bit7 h
    simp only [Row.selects, encode, packCmd, beq_self_eq_true, Bool.true_and, beq_iff_eq]
    refine BitVec.eq_of_getLsbD_eq fun i hi => ?_
    simp only [BitVec.getLsbD_and, BitVec.getLsbD_append]
    interval_cases i <;> simp [h7]

theorem forceStop : Statement .forceStop :=
  of_row ⟨"FORCE_STOP", 32, 0xFFFFFFFF, 0x80000000⟩ (by decide) rfl fun _ => by decide

theorem uInit (d : Byte) : Statement (.uInit d) :=
  of_row ⟨"U_INIT", 16, 0xFF00, 0x0000⟩ (by decide) rfl fun _ => by revert d; decide

theorem uStart : Statement .uStart :=
  of_row ⟨"U_START", 16, 0xFFFF, 0x1000⟩ (by decide) rfl fun _ => by decide

theorem uClrStart : Statement .uClrStart :=
  of_row ⟨"U_CLRSTART", 16, 0xFFFF, 0x2000⟩ (by decide) rfl fun _ => by decide

theorem uStop : Statement .uStop :=
  of_row ⟨"U_STOP", 16, 0xFFFF, 0x3000⟩ (by decide) rfl fun _ => by decide

theorem uGo : Statement .uGo :=
  of_row ⟨"U_GO", 16, 0xFFFF, 0x4000⟩ (by decide) rfl fun _ => by decide

theorem uWait : Statement .uWait :=
  of_row ⟨"U_WAIT", 16, 0xFFFF, 0x5000⟩ (by decide) rfl fun _ => by decide

theorem uAck (e : Bool) : Statement (.uAck e) :=
  of_row ⟨"U_ACK", 16, 0xFEFF, 0x6000⟩ (by decide) rfl fun _ => by revert e; decide

theorem uStatus : Statement .uStatus :=
  of_row ⟨"U_STATUS", 16, 0xFFFF, 0x7000⟩ (by decide) rfl fun _ => by decide

theorem uWbyte (b : Byte) : Statement (.uWbyte b) :=
  of_row ⟨"U_WBYTE", 16, 0xFF00, 0x8000⟩ (by decide) rfl fun _ => by revert b; decide

theorem uRbyte : Statement .uRbyte :=
  of_row ⟨"U_RBYTE", 16, 0xFFFF, 0x9000⟩ (by decide) rfl fun _ => by decide

theorem uCheck (k : BitVec 4) (e : Status) : Statement (.uCheck k e) :=
  of_row ⟨"U_CHECK", 16, 0xF0E0, 0xA000⟩ (by decide) rfl fun _ => by
    simp only [Row.selects, encode, packUop, beq_self_eq_true, Bool.true_and, beq_iff_eq]
    refine BitVec.eq_of_getLsbD_eq fun i hi => ?_
    simp only [BitVec.getLsbD_and, BitVec.getLsbD_append]
    interval_cases i <;> simp

end Sys2Proof.Laws.RowSelects
end

