-- ==== Sys2Proof/Laws/Sequencer.lean ====
section
/-! SUPPORT. What sequencing and acceptance can do, said once. -/

namespace Sys2Proof.Machine

/-- If sequencing answers a next state, the pair stayed or it took the row of R150. -/
theorem advance_cases {k : UopKind} {s t : State} (h : advance k s = .next t) :
    (selected s.ph s.us ≠ some k ∧ t = s) ∨
      (selected s.ph s.us = some k ∧ sequel k s = some t) := by
  unfold advance at h
  split at h
  next hk =>
    split at h
    next t' ht => cases h; exact .inr ⟨hk, ht⟩
    next => cases h
  next hk => cases h; exact .inl ⟨hk, rfl⟩

/-- Where the pair selects the micro-op, sequencing is its row of R150. -/
theorem advance_selected {k : UopKind} {s t : State} (hk : selected s.ph s.us = some k)
    (ht : sequel k s = some t) : advance k s = .next t := by
  simp [advance, hk, ht]

/-- Where it does not, the pair stays. -/
theorem advance_elsewhere {k : UopKind} {s : State} (hk : selected s.ph s.us ≠ some k) :
    advance k s = .next s := by
  simp [advance, hk]

/-- Only the check can meet a transition that R177 calls unreachable. -/
theorem sequel_isSome {k : UopKind} (h : k ≠ .check) (s : State) : (sequel k s).isSome = true := by
  cases k <;> first | rfl | exact absurd rfl h

/-- Sequencing after any other micro-op always answers a next state. -/
theorem advance_next {k : UopKind} (h : k ≠ .check) (s : State) : ∃ t, advance k s = .next t := by
  obtain ⟨t, ht⟩ := Option.isSome_iff_exists.mp (sequel_isSome h s)
  by_cases hk : selected s.ph s.us = some k
  · exact ⟨t, advance_selected hk ht⟩
  · exact ⟨s, advance_elsewhere hk⟩

/-- If acceptance answers a next state, the command waited or was accepted (R170). -/
theorem accept_cases {g : Option Refusal} {o : Op} {f : State → State} {s t : State}
    (h : accept g o f s = .next t) :
    (s.busy = true ∧ t = s) ∨ (s.busy = false ∧ g = none ∧ t = f (s.setOp o)) := by
  unfold accept at h
  split at h
  next hb => cases h; exact .inl ⟨hb, rfl⟩
  next hb =>
    split at h
    · cases h
    · cases h; exact .inr ⟨by simpa using hb, rfl, rfl⟩

/-- A command that no gate refuses is accepted in `IDLE`. -/
theorem accept_idle {s : State} (hb : s.busy = false) (o : Op) (f : State → State) :
    accept none o f s = .next (f (s.setOp o)) := by
  simp [accept, hb]

/-- While `BUSY` a command waits. -/
theorem accept_busy {s : State} (hb : s.busy = true) (g : Option Refusal) (o : Op)
    (f : State → State) : accept g o f s = .next s := by
  simp [accept, hb]

end Sys2Proof.Machine
end

