-- ==== Sys2Proof/Laws/Step.lean ====
section
/-! SUPPORT. What each meaning, each move and each step can do, said once, and runs cut into parts. -/

namespace Sys2Proof.Machine

/-! ## Meanings over the shared operations -/

/-- Everything `U_INIT` does before sequencing (R121). -/
theorem execUInit_eq (d : Byte) (s : State) :
    execUInit d s = advance .init
      (((s.setBr d).setCtrl (storeCtrl s.ctrl initByte)).setInitialized true) := by
  simp [execUInit, writeCtrl_initByte]

/-- Everything `U_START` does before sequencing (R122). -/
theorem execUStart_eq (s : State) :
    execUStart s = advance .start (s.setCtrl (storeCtrl s.ctrl (fieldWriteByte .start true s.ctrl))) := by
  simp [execUStart]

/-- Everything `U_CLRSTART` does before sequencing (R123). -/
theorem execUClrStart_eq (s : State) :
    execUClrStart s =
      advance .clrStart (s.setCtrl (storeCtrl s.ctrl (fieldWriteByte .start false s.ctrl))) := by
  simp [execUClrStart]

/-- Everything `U_STOP` does before sequencing (R124). -/
theorem execUStop_eq (s : State) :
    execUStop s = advance .stop (s.setCtrl (storeCtrl s.ctrl (fieldWriteByte .stop true s.ctrl))) := by
  simp [execUStop]

/-- Everything `U_ACK` does before sequencing (R129). -/
theorem execUAck_eq (e : Bool) (s : State) :
    execUAck e s = advance .ack (s.setCtrl (storeCtrl s.ctrl (fieldWriteByte .ack e s.ctrl))) := by
  simp [execUAck]

/-- Everything `U_GO` does before sequencing, in a phase that has a primitive (R125). -/
theorem execUGo_eq {s : State} {k : PrimKind} (hk : s.ph.kind = some k) :
    execUGo s = advance .go
      (launch k (s.setCtrl (storeCtrl s.ctrl (goByte (s.ctrl &&& ctrlUsedMask))))) := by
  simp [execUGo, writeCtrl_launch (ctrlInt_goByte _) hk]

/-- In a phase without a primitive `U_GO` is refused (R126). -/
theorem execUGo_refused {s : State} (hk : s.ph.kind = none) :
    execUGo s = .refused .noPrimitiveInPhase := by
  simp [execUGo, writeCtrl, hk]

/-- `U_WAIT` holds, or sequences (R128). -/
theorem execUWait_eq (s : State) :
    execUWait s = if ctrlInt s.ctrl then advance .wait s else .next s := by
  simp [execUWait]

/-- Everything `U_STATUS` does before sequencing, inside the window (R140). -/
theorem execUStatus_open {s : State} (h : s.windowOpen = true) :
    execUStatus s = advance .status (s.setStLatch (statusOf s.sr)) := by
  simp [execUStatus, readSr_open h]

/-- Everything `U_WBYTE` does before sequencing (R141). -/
theorem execUWbyte_eq (b : Byte) (s : State) : execUWbyte b s = advance .wbyte (s.setDr b) := by
  simp [execUWbyte]

/-- Everything `U_RBYTE` does before sequencing, inside the window and the buffer (R142). -/
theorem execURbyte_open {s : State} (hi : s.idx.toNat < Config.maxBurst)
    (h : s.windowOpen = true) :
    execURbyte s = advance .rbyte (s.setBuf (s.buf.write s.idx.toNat s.dr)) := by
  simp [execURbyte, hi, readDr_open h]

/-- A check passes on equality (R156). -/
theorem execUCheck_pass {e : Status} {s : State} (h : s.stLatch = e) (k : BitVec 4) :
    execUCheck k e s = advance .check s := by
  simp [execUCheck, h]

/-- A check aborts on any other status (R156, R157). -/
theorem execUCheck_abort {e : Status} {s : State} (h : s.stLatch ≠ e) {k : BitVec 4} {r : Result}
    (hk : Result.ofErrCode k = some r) : execUCheck k e s = .next (raiseError r s) := by
  simp [execUCheck, h, hk]

/-- The code of a bus error kind names that kind. -/
theorem ofErrCode_code {r : Result} (h : r.isBusError = true) : Result.ofErrCode r.code = some r := by
  cases r <;> first | rfl | exact absurd h (by decide)

/-! ## Moves -/

/-- Everything a completion does (R73). -/
theorem completeWith_eq (p : InFlight) (st : Status) (d : Byte) (s : State) :
    completeWith p st d s =
      { s with
        sr := packSr st (Config.freeSrLow s.draws), dr := dataAfter p d s.draws
        busOwned := ownedAfter p st s.busOwned, inflight := none, ctrl := setInt s.ctrl
        slave := Config.freeSlave s.draws, draws := s.draws + 1 } := by
  apply State.ext <;> simp [completeWith, disturbSlave]

/-- An enabled completion completes the primitive in flight (R73). -/
theorem eComplete_enabled {s : State} {p : InFlight} (hp : s.inflight = some p)
    (he : s.completeEnabled = true) (st : Status) (d : Byte) :
    eComplete st d s = completeWith p st d s := by
  simp [eComplete, hp, he]

/-- A completion that is not enabled changes nothing (R73, R75). -/
theorem eComplete_disabled {s : State} (he : s.completeEnabled = false) (st : Status) (d : Byte) :
    eComplete st d s = s := by
  unfold eComplete
  split <;> simp [he]

/-- Everything the end of a stop does (R74). -/
theorem eStopDone_eq {s : State} (h : s.stopBusy = true) :
    eStopDone s =
      { s with
        ctrl := clearStop s.ctrl, stopBusy := false, busOwned := false
        slave := Config.freeSlave s.draws, draws := s.draws + 1 } := by
  apply State.ext <;> simp [eStopDone, h, disturbSlave]

/-- With no stop unfinished there is none to end (R74). -/
theorem eStopDone_disabled {s : State} (h : s.stopBusy = false) : eStopDone s = s := by
  simp [eStopDone, h]

/-- An offer on a free port puts the command there (R16). -/
theorem offer_free {s : State} (h : s.cmd = none) (w : CmdWord) : offer w s = s.setCmd (some w) := by
  simp [offer, h]

/-- A command on the port stays there (R224). -/
theorem offer_taken {s : State} {v : CmdWord} (h : s.cmd = some v) (w : CmdWord) :
    offer w s = s := by
  simp [offer, h]

/-- HOST's offer touches the command port alone (R16). -/
theorem offer_eq (w : CmdWord) (s : State) : ∃ c, offer w s = s.setCmd c := by
  cases h : s.cmd with
  | none => exact ⟨some w, offer_free h w⟩
  | some v => exact ⟨s.cmd, offer_taken h w⟩

/-! ## Steps -/

/-- With no move to come SEQ steps. -/
theorem step_nil {s : State} (h : s.schedule = []) : step s = seqStep s := by
  simp [step, h]

/-- The first move to come is made. -/
theorem step_cons {s : State} {m : Move} {ms : List Move} (h : s.schedule = m :: ms) :
    step s = makeMove m (s.setSchedule ms) := by
  simp [step, h]

/-- While `BUSY` SEQ executes the micro-op it issues (R150). -/
theorem seqStep_busy {s : State} {i : Instr} (hu : s.uw = none) (hp : s.ph ≠ .idle)
    (hi : issue s = .ok i) : seqStep s = exec i s := by
  simp [seqStep, fetch, hu, hp, hi]

/-- In `IDLE` SEQ executes the command on the port (R170). -/
theorem seqStep_command {s : State} {w : CmdWord} {i : Instr} (hu : s.uw = none)
    (hp : s.ph = .idle) (hc : s.cmd = some w) (hi : decodeCmd w = .ok i) :
    seqStep s = exec i (s.setCmd none) := by
  simp [seqStep, fetch, hu, hp, hc, hi, runDecoded]

/-- In `IDLE` without a command SEQ does nothing (R231). -/
theorem seqStep_nothing {s : State} (hu : s.uw = none) (hp : s.ph = .idle) (hc : s.cmd = none) :
    seqStep s = .next s := by
  simp [seqStep, fetch, hu, hp, hc]

/-! ## Runs -/

@[simp] theorem runFor_zero (s : State) : runFor 0 s = .next s := rfl

/-- A run is a first step and the rest. -/
theorem runFor_succ {n : Nat} {s t : State} (h : step s = .next t) :
    runFor (n + 1) s = runFor n t := by
  have h' : Sys2Proof.core.step s = .next t := h
  simp only [runFor, Host.Core.run, h']
  rfl

/-- A run whose answer is a state starts with a step that answers one. -/
theorem runFor_succ_next {n : Nat} {s t : State} (h : runFor (n + 1) s = .next t) :
    ∃ u, step s = .next u ∧ runFor n u = .next t := by
  cases hs : step s with
  | next u => exact ⟨u, rfl, by rw [← runFor_succ hs]; exact h⟩
  | fault f =>
    have h' : Sys2Proof.core.step s = .fault f := hs
    simp [runFor, Host.Core.run, h'] at h
  | refused r =>
    have h' : Sys2Proof.core.step s = .refused r := hs
    simp [runFor, Host.Core.run, h'] at h

/-- A run is cut where its first part answers a state. -/
theorem runFor_add {m n : Nat} {s t : State} (h : runFor m s = .next t) :
    runFor (m + n) s = runFor n t := by
  induction m generalizing s with
  | zero => cases h; simp
  | succ m ih =>
    obtain ⟨u, hs, hu⟩ := runFor_succ_next h
    rw [Nat.succ_add, runFor_succ hs, ih hu]

end Sys2Proof.Machine
end

