-- ==== Sys2Proof/Tests/Slice0.lean ====
section
/-! SUPPORT. Tests.  Every expected value is of spec/95_test_vectors.md or worked out by hand from a
rule of the spec; the vector's number stands in the comment.  The witnesses show that the hypotheses
of each obligation can be met. -/

namespace Sys2Proof.Tests

open Sys2Proof Sys2Proof.Machine

/-! ## Helpers -/

/-- SEQ at `(p, u)` after `INIT`: `CTRL` is `c`. -/
def seqAt (p : Phase) (u : MicroStep) (c : Byte) : State :=
  { State.reset with ph := p, us := u, initialized := true, ctrl := c }

/-- SEQ in a command `o` under way at `(p, u)`. -/
def running (o : Op) (p : Phase) (u : MicroStep) (c : Byte) : State :=
  { seqAt p u c with op := o, len := 1#8 }

/-- SEQ held in the second phase of a write. -/
def heldWrite : State := running .writeReg .slaw .wait 0x44#8

/-- Something of the next state. -/
def after {α : Type} (o : Outcome) (f : State → α) : Option α :=
  match o with
  | .next t => some (f t)
  | .fault _ => none
  | .refused _ => none

/-- The command word of an instruction is on HOST's port. -/
def offering (s : State) (w : CmdWord) (ms : List Move) : State :=
  { s with cmd := some w, schedule := ms }

/-- Every status has another one. -/
theorem status_ne_succ : ∀ e : Status, e + 1#5 ≠ e := by decide

/-! ## WellFormed: an ill-formed term for each check -/

theorem test_wf_writeReg_addr : (Instr.writeReg 0x80#8 0#8 0#8).wf = false := by decide
theorem test_wf_readReg_addr : (Instr.readReg 0xE8#8 0#8).wf = false := by decide
theorem test_wf_readBurst_addr : (Instr.readBurst 0xFF#8 0#8 1#8).wf = false := by decide
theorem test_wf_uCheck_err0 : (Instr.uCheck 0#4 1#5).wf = false := by decide
theorem test_wf_uCheck_err9 : (Instr.uCheck 9#4 1#5).wf = false := by decide
theorem test_wf_accepts : (Instr.writeReg 0x7F#8 0xFF#8 0xFF#8).wf = true := by decide

/-! ## Decoding: the words of section 3 -/

/-- N1, N2. -/
theorem test_decode_init : decode (.cmd 0x0000000A#32) = .ok (.init 0x0A#8) ∧
    decode (.cmd 0x000000FF#32) = .ok (.init 0xFF#8) := by decide
/-- N4, N5. -/
theorem test_decode_writeReg :
    decode (.cmd 0x20682B30#32) = .ok (.writeReg 0x68#8 0x2B#8 0x30#8) ∧
    decode (.cmd 0x207FFFFF#32) = .ok (.writeReg 0x7F#8 0xFF#8 0xFF#8) := by decide
/-- N8. -/
theorem test_decode_readReg : decode (.cmd 0x40680000#32) = .ok (.readReg 0x68#8 0x00#8) := by
  decide
/-- N10, N11, N12. -/
theorem test_decode_readBurst :
    decode (.cmd 0x60683304#32) = .ok (.readBurst 0x68#8 0x33#8 4#8) ∧
    decode (.cmd 0x60683300#32) = .ok (.readBurst 0x68#8 0x33#8 0#8) ∧
    decode (.cmd 0x606833FF#32) = .ok (.readBurst 0x68#8 0x33#8 255#8) := by decide
/-- N13. -/
theorem test_decode_forceStop : decode (.cmd 0x80000000#32) = .ok .forceStop := by decide
/-- N3, N6, N7, N9, N14, N15. -/
theorem test_decode_refused_commands :
    decode (.cmd 0x00000100#32) = .error .nonZeroUnusedField ∧
    decode (.cmd 0x20E82B30#32) = .error .slaveAddressAbove127 ∧
    decode (.cmd 0x21682B30#32) = .error .nonZeroUnusedField ∧
    decode (.cmd 0x40680001#32) = .error .nonZeroUnusedField ∧
    decode (.cmd 0x80000001#32) = .error .nonZeroUnusedField ∧
    decode (.cmd 0xA0000000#32) = .error .reservedCommandCode ∧
    decode (.cmd 0xC0000000#32) = .error .reservedCommandCode ∧
    decode (.cmd 0xE0000000#32) = .error .reservedCommandCode := by decide
/-- N30 to N39. -/
theorem test_decode_microOps :
    decode (.uop 0x000A#16) = .ok (.uInit 0x0A#8) ∧
    decode (.uop 0x1000#16) = .ok .uStart ∧
    decode (.uop 0x2000#16) = .ok .uClrStart ∧
    decode (.uop 0x3000#16) = .ok .uStop ∧
    decode (.uop 0x4000#16) = .ok .uGo ∧
    decode (.uop 0x5000#16) = .ok .uWait ∧
    decode (.uop 0x6100#16) = .ok (.uAck true) ∧
    decode (.uop 0x6000#16) = .ok (.uAck false) ∧
    decode (.uop 0x7000#16) = .ok .uStatus ∧
    decode (.uop 0x80D0#16) = .ok (.uWbyte 0xD0#8) ∧
    decode (.uop 0x9000#16) = .ok .uRbyte := by decide
/-- N40 to N47. -/
theorem test_decode_checks :
    decode (.uop 0xA101#16) = .ok (.uCheck 1#4 0x01#5) ∧
    decode (.uop 0xA202#16) = .ok (.uCheck 2#4 0x02#5) ∧
    decode (.uop 0xA303#16) = .ok (.uCheck 3#4 0x03#5) ∧
    decode (.uop 0xA408#16) = .ok (.uCheck 4#4 0x08#5) ∧
    decode (.uop 0xA505#16) = .ok (.uCheck 5#4 0x05#5) ∧
    decode (.uop 0xA60B#16) = .ok (.uCheck 6#4 0x0B#5) ∧
    decode (.uop 0xA70A#16) = .ok (.uCheck 7#4 0x0A#5) ∧
    decode (.uop 0xA80B#16) = .ok (.uCheck 8#4 0x0B#5) := by decide
/-- N48 and the masks of the table. -/
theorem test_decode_refused_microOps :
    decode (.uop 0xB000#16) = .error .reservedMicroOpCode ∧
    decode (.uop 0xFFFF#16) = .error .reservedMicroOpCode ∧
    decode (.uop 0x4001#16) = .error .nonZeroMicroOpField ∧
    decode (.uop 0x6200#16) = .error .nonZeroMicroOpField ∧
    decode (.uop 0xA120#16) = .error .nonZeroMicroOpField := by decide
/-- The result codes that the words N40 to N47 name (R102). -/
theorem test_errCodes : (List.range 8).map (fun k => Result.ofErrCode (BitVec.ofNat 4 (k + 1))) =
    [some .startError, some .repeatedStartError, some .slaveWriteError, some .slaveReadError,
      some .writeError, some .readError, some .ackError, some .nackError] := by decide

/-- The column err of R158, row by row, with `LEN = 2` and `IDX` 0 or 1 in `RX`. -/
theorem test_errorKinds :
    [Phase.start, .slaw, .rega, .value, .rstart, .slar].map
        (fun p => (running .readReg p .chk 0xC4#8).errorKind) =
      [some .startError, some .slaveWriteError, some .writeError, some .writeError,
        some .repeatedStartError, some .slaveReadError] ∧
    [(Op.readBurst, 0#8), (.readBurst, 1#8), (.readReg, 1#8)].map
        (fun x => ({ running x.1 .rx .chk 0xC4#8 with len := 2#8, idx := x.2 } : State).errorKind) =
      [some .ackError, some .nackError, some .readError] := by decide

/-! ## Assembled bytes and packed values: N20 to N28, N50 to N53 -/

theorem test_slaByte : slaByte 0x68#7 Config.dirWrite = 0xD0#8 ∧
    slaByte 0x68#7 Config.dirRead = 0xD1#8 ∧ slaByte 0x7F#7 Config.dirRead = 0xFF#8 ∧
    slaByte 0x1D#7 Config.dirWrite = 0x3A#8 := by decide
theorem test_regAddrByte : regAddrByte .readBurst 0x33#8 = 0xB3#8 ∧
    regAddrByte .readBurst 0xFF#8 = 0xFF#8 ∧ regAddrByte .readReg 0xB3#8 = 0xB3#8 ∧
    regAddrByte .writeReg 0x33#8 = 0x33#8 := by decide
theorem test_traceCodes : TraceEntry.start.code = 0x000#10 ∧ TraceEntry.stop.code = 0x100#10 ∧
    (TraceEntry.tx 0xD0#8).code = 0x2D0#10 ∧ (TraceEntry.rx true).code = 0x301#10 ∧
    (TraceEntry.rx false).code = 0x300#10 := by decide

/-! ## Commands: one acceptance each -/

/-- R170, R171. -/
theorem test_init_accepts : after (step (offering State.reset 0x0000000A#32 []))
    (fun t => (t.ph, t.divr, t.op, t.cmd)) = some (.init, 0x0A#8, .init, none) := by decide
/-- N17. -/
theorem test_init_twice_refused :
    step (offering (seqAt .idle .cfg 0x44#8) 0x0000000A#32 []) = .refused .alreadyInitialized := by
  rfl
/-- S1's acceptance. -/
theorem test_writeReg_accepts : after (step (offering (seqAt .idle .cfg 0x44#8) 0x20682B30#32 []))
    (fun t => (t.ph, t.sla, t.reg, t.val, t.trace)) =
      some (.start, 0x68#7, 0x2B#8, 0x30#8, []) := by decide
/-- N16. -/
theorem test_writeReg_before_init_refused :
    step (offering State.reset 0x20682B30#32 []) = .refused .notInitialized := by rfl
/-- S2's acceptance: `LEN = 1`. -/
theorem test_readReg_accepts : after (step (offering (seqAt .idle .cfg 0x44#8) 0x40680000#32 []))
    (fun t => (t.ph, t.len, t.op, t.resultValid)) = some (.start, 1#8, .readReg, false) := by decide
/-- S3's acceptance. -/
theorem test_readBurst_accepts : after (step (offering (seqAt .idle .cfg 0x44#8) 0x60683304#32 []))
    (fun t => (t.ph, t.len, t.reg)) = some (.start, 4#8, 0x33#8) := by decide
/-- S6, X15. -/
theorem test_readBurst_zero : after (step (offering (seqAt .idle .cfg 0x44#8) 0x60683300#32 []))
    (fun t => (t.ph, t.response, t.ctrl, t.trace)) =
      some (.idle, some ⟨.invalidLength, 0#8, []⟩, 0x44#8, []) := by decide
/-- S8's acceptance. -/
theorem test_forceStop_accepts : after (step (offering (seqAt .idle .cfg 0x44#8) 0x80000000#32 []))
    (fun t => (t.ph, t.us, t.ctrl)) = some (.stop, .cfg, 0x44#8) := by decide
/-- Z6: a command offered while `BUSY` stays on its port. -/
theorem test_command_waits : after (step (offering (running .writeReg .start .cfg 0x44#8)
    0x80000000#32 [])) (fun t => (t.cmd, t.ph, t.us)) =
      some (some 0x80000000#32, .start, .go) := by decide

/-! ## Micro-ops: the vectors M1 to M32 -/

/-- M1. -/
theorem test_uInit : after (step { State.reset with ph := .init, divr := 0x0A#8 })
    (fun t => (t.br, t.ctrl, t.initialized, t.trace, t.response)) =
      some (0x0A#8, 0x44#8, true, [], some ⟨.ok, 0#8, []⟩) := by decide
/-- M4, M5. -/
theorem test_uStart : after (step (running .writeReg .start .cfg 0xC4#8)) State.ctrl = some 0xE4#8 ∧
    after (step (running .writeReg .start .cfg 0x04#8)) State.ctrl = some 0x24#8 := by decide
/-- M7, M8. -/
theorem test_uClrStart :
    after (step (running .writeReg .start .clr 0xE4#8)) State.ctrl = some 0xC4#8 ∧
    after (step (running .writeReg .start .clr 0xA4#8)) State.ctrl = some 0x84#8 := by decide
/-- M9, M10. -/
theorem test_uStop : after (step (running .writeReg .stop .cfg 0xC4#8)) State.ctrl = some 0xD4#8 ∧
    after (step (running .readReg .stop .cfg 0x84#8)) State.ctrl = some 0x94#8 := by decide
/-- M13, M14. -/
theorem test_uGo_start_tx : after (step (running .readReg .rstart .go 0xE4#8))
      (fun t => (t.ctrl, t.inflight, t.trace)) = some (0x64#8, some .start, [.start]) ∧
    after (step { running .writeReg .slaw .go 0xC4#8 with dr := 0xD0#8 })
      (fun t => (t.ctrl, t.inflight, t.trace)) =
        some (0x44#8, some (.tx 0xD0#8), [.tx 0xD0#8]) := by decide
/-- M15, M16, M17. -/
theorem test_uGo_rx_stop : after (step (running .readReg .rx .go 0xC4#8))
      (fun t => (t.ctrl, t.inflight, t.trace)) = some (0x44#8, some (.rx true), [.rx true]) ∧
    after (step (running .readReg .rx .go 0x84#8))
      (fun t => (t.ctrl, t.inflight, t.trace)) = some (0x04#8, some (.rx false), [.rx false]) ∧
    after (step (running .writeReg .stop .go 0xD4#8))
      (fun t => (t.ctrl, t.inflight, t.trace, t.stopBusy)) =
        some (0x54#8, none, [.stop], true) := by decide
/-- M18. -/
theorem test_uWait_holds :
    after (step (running .writeReg .slaw .wait 0x44#8)) id =
      some (running .writeReg .slaw .wait 0x44#8) := by decide
/-- M19. -/
theorem test_uWait_proceeds :
    after (step (running .writeReg .slaw .wait 0xC4#8)) State.us = some .stat := by decide
/-- M20, M22. -/
theorem test_uAck : after (exec (.uAck false) (running .readReg .rx .cfg 0xC4#8)) State.ctrl =
      some 0x84#8 ∧
    after (exec (.uAck true) (running .readReg .rx .cfg 0xC4#8)) State.ctrl = some 0xC4#8 := by
  decide
/-- M24, M25. -/
theorem test_uStatus : after (step { running .writeReg .slaw .stat 0xC4#8 with sr := 0x1B#8 })
      State.stLatch = some 0x03#5 ∧
    after (step { running .writeReg .slaw .stat 0xC4#8 with sr := 0x07#8 })
      State.stLatch = some 0x00#5 := by decide
/-- M27. -/
theorem test_uWbyte : after (step { running .writeReg .slaw .cfg 0xC4#8 with sla := 0x68#7 })
    (fun t => (t.dr, t.ctrl, t.inflight)) = some (0xD0#8, 0xC4#8, none) := by decide
/-- M28, T15. -/
theorem test_uRbyte : after (step { running .readReg .rx .data 0x84#8 with dr := 0xE3#8 })
    (fun t => (t.buf.read 0, t.ph, t.idx)) = some (0xE3#8, .stop, 0#8) := by decide
/-- M29, T14. -/
theorem test_uRbyte_more :
    after (step { running .readBurst .rx .data 0xC4#8 with
      dr := 0x4D#8, idx := 3#8, len := 5#8, buf := [(0, 0x1A#8)] })
    (fun t => (t.buf, t.ph, t.idx)) = some ([(0, 0x1A#8), (3, 0x4D#8)], .rx, 4#8) := by decide
/-- M30. -/
theorem test_uCheck_passes : after (exec (.uCheck 5#4 0x05#5)
    { running .writeReg .value .chk 0xC4#8 with stLatch := 0x05#5 })
    (fun t => (t.ph, t.us, t.resultValid)) = some (.stop, .cfg, false) := by decide
/-- M31. -/
theorem test_uCheck_aborts : after (exec (.uCheck 5#4 0x05#5)
    { running .writeReg .value .chk 0xC4#8 with stLatch := 0x06#5 })
    (fun t => (t.ph, t.response, t.ctrl)) =
      some (.idle, some ⟨.writeError, 0#8, []⟩, 0xC4#8) := by decide

/-! ## CTL, reset: M40 to M44, Z1 -/

/-- M40 but for `BUS_OWNED`. -/
theorem test_complete_start : after (step { running .writeReg .start .wait 0x64#8 with
    inflight := some .start, schedule := [.complete 0x01#5 0#8] })
    (fun t => (statusOf t.sr, t.ctrl, t.inflight)) = some (0x01#5, 0xE4#8, none) := by
  simp [step, makeMove, eComplete, running, seqAt, State.reset, State.completeEnabled, completeWith,
    after, State.setSchedule, State.setCtrl, State.setInflight, State.setBusOwned, State.setDr,
    State.setSr, disturbSlave, State.setSlave, State.nextDraw, setInt, withBit]
/-- M40's `BUS_OWNED`: a start code makes the bus owned, whatever the code is (R73). -/
theorem test_complete_owned : ownedAfter .start Config.stRstartOk false = true := by
  simp [ownedAfter]
/-- M41. -/
theorem test_complete_rx : after (step { running .readReg .rx .wait 0x04#8 with
    inflight := some (.rx false), schedule := [.complete 0x0B#5 0xE3#8] })
    (fun t => (t.dr, t.ctrl, t.inflight)) = some (0xE3#8, 0x84#8, none) := by decide
/-- M42. -/
theorem test_complete_waits_for_stop : after (step { running .writeReg .start .wait 0x74#8 with
    inflight := some .start, stopBusy := true, schedule := [.complete 0x01#5 0#8] })
    (fun t => (t.inflight, t.ctrl, t.sr)) = some (some .start, 0x74#8, 0xF8#8) := by decide
/-- M43. -/
theorem test_stopDone : after (step { seqAt .idle .cfg 0x54#8 with
    stopBusy := true, busOwned := true, schedule := [.stopDone] })
    (fun t => (t.ctrl, t.stopBusy, t.busOwned, t.sr)) =
      some (0x44#8, false, false, 0xF8#8) := by decide
/-- Z1. -/
theorem test_reset : after (step { running .writeReg .slaw .wait 0x44#8 with
    trace := [.start], inflight := some (.tx 0xD0#8), schedule := [.reset] })
    (fun t => (t.ph, t.resultValid, t.ctrl, t.trace, t.inflight)) =
      some (.idle, false, 0x00#8, [], none) := by decide

/-- Z6, R16: HOST's offer reaches the port; R224: a second one does not replace it. -/
theorem test_offer : after (step { heldWrite with schedule := [.offer 0x80000000#32] }) State.cmd =
      some (some 0x80000000#32) ∧
    after (step { heldWrite with cmd := some 1#32, schedule := [.offer 0x80000000#32] }) State.cmd =
      some (some 1#32) := by decide
/-- P1's response as HOST reads it: one byte 0xE3. -/
theorem test_bufData : ({ seqAt .idle .cfg 0x04#8 with
    resultValid := true, count := 1#8, buf := [(0, 0xE3#8)] } : State).bufData 0#8 = 0xE3#8 := by
  decide
/-- Z5: the start of the next command before and after the end of the stop. -/
theorem test_start_waits_for_stop :
    after (step { running .readReg .start .cfg 0x54#8 with stopBusy := true }) State.ctrl =
      some 0x74#8 ∧
    after (step { running .readReg .start .wait 0x74#8 with
      inflight := some .start, stopBusy := true, schedule := [.stopDone] })
      (fun t => (t.ctrl, t.busOwned, t.completeEnabled)) = some (0x64#8, false, true) := by decide

/-! ## Witnesses: the hypotheses of each obligation can be met

The numbers in the names are none of the spec's; a name is the obligation's and the clause's. -/

theorem witness_DecodeOfEncodeIsIdentity : (Instr.readBurst 0x7F#8 0xFF#8 0xFF#8).wf = true ∧
    (Instr.uCheck 1#4 0x1F#5).wf = true ∧ (Instr.uCheck 8#4 0#5).wf = true := by decide

theorem witness_EncodeOfDecodeIsIdentity :
    ∃ w i, decode w = .ok i := ⟨.cmd 0x207FFFFF#32, .writeReg 0x7F#8 0xFF#8 0xFF#8, by decide⟩

theorem witness_DecoderFollowsOpcodeTable :
    ∃ w i, decode w = .ok i ∧ ∃ r ∈ opcodeTable, r.selects w = true :=
  ⟨.uop 0xAF1F#16, .uCheck 15#4 0x1F#5, by decide, ⟨"U_CHECK", 16, 0xF0E0, 0xA000⟩, by decide,
    by decide⟩

/-- The hypotheses of MalformedCommandsAreRefused but for the last. -/
def idleWith (w : CmdWord) (s : State) : Prop :=
  s.uw = none ∧ s.ph = .idle ∧ s.cmd = some w ∧ seqMovesNext s = true

theorem witness_Malformed_state (w : CmdWord) : ∃ s, idleWith w s :=
  ⟨offering State.reset w [], rfl, rfl, rfl, rfl⟩

theorem witness_Malformed_code : 5 ≤ (cmdOp 0xA0000000#32).toNat ∧
    5 ≤ (cmdOp 0xFFFFFFFF#32).toNat := by decide

theorem witness_Malformed_reserved : cmdRsv 0x01000000#32 ≠ 0#5 ∧ cmdRsv 0x10000000#32 ≠ 0#5 := by
  decide

theorem witness_Malformed_unused :
    (cmdOp 0x00010000#32 = 0#3 ∧ cmdA 0x00010000#32 ≠ 0#8) ∧
    (cmdOp 0x00000100#32 = 0#3 ∧ cmdR 0x00000100#32 ≠ 0#8) ∧
    (cmdOp 0x40680001#32 = 2#3 ∧ cmdX 0x40680001#32 ≠ 0#8) ∧
    (cmdOp 0x80000001#32 = 4#3 ∧ cmdX 0x80000001#32 ≠ 0#8) := by decide

theorem witness_Malformed_address :
    (cmdOp 0x20800000#32 = 1#3 ∧ 128 ≤ (cmdA 0x20800000#32).toNat) ∧
    (cmdOp 0x40FF0000#32 = 2#3 ∧ 128 ≤ (cmdA 0x40FF0000#32).toNat) ∧
    (cmdOp 0x60800000#32 = 3#3 ∧ 128 ≤ (cmdA 0x60800000#32).toNat) := by decide

theorem witness_BurstSetsTopBit : (0x80#8).getLsbD 7 = true ∧ (0xFF#8).getLsbD 7 = true ∧
    (seqAt .idle .cfg 0x44#8).ph = .idle ∧ (seqAt .idle .cfg 0x44#8).initialized = true ∧
    (127#8).toNat < 128 ∧ (1#8) ≠ 0#8 := by decide

theorem witness_StepRuns_command : ∃ s w i, seqMovesNext s = true ∧ s.uw = none ∧ s.ph = .idle ∧
    s.cmd = some w ∧ decode (.cmd w) = .ok i :=
  ⟨offering State.reset 0x0000000A#32 [.seq], 0x0000000A#32, .init 0x0A#8, by decide⟩

theorem witness_StepRuns_microOp : ∃ s i, seqMovesNext s = true ∧ s.uw = none ∧ s.ph ≠ .idle ∧
    issue s = .ok i := ⟨running .readReg .rx .cfg 0xC4#8, .uAck false, by decide⟩

theorem witness_StepRuns_placed : ∃ s w i, seqMovesNext s = true ∧ s.uw = some w ∧
    decode (.uop w) = .ok i :=
  ⟨{ State.reset with uw := some 0x1000#16 }, 0x1000#16, .uStart, by decide⟩

theorem witness_PlacedWordRunsNext : decodeTableWord 32 0x80000000 = some .forceStop ∧
    decodeTableWord 16 0xA101 = some (.uCheck 1#4 1#5) := by decide

theorem witness_IdleWithoutCommand : State.reset.uw = none ∧ State.reset.ph = .idle ∧
    State.reset.cmd = none ∧ State.reset.schedule = [] := by decide

theorem witness_InitAcceptance : State.reset.ph = .idle ∧ State.reset.initialized = false := by
  decide

theorem witness_TransactionAcceptance : (seqAt .idle .cfg 0x44#8).ph = .idle ∧
    (seqAt .idle .cfg 0x44#8).initialized = true ∧ (127#8).toNat < 128 ∧ (0#8).toNat < 128 ∧
    (255#8) ≠ 0#8 ∧ (1#8) ≠ 0#8 := by decide

theorem witness_ZeroLengthBurst : (seqAt .idle .cfg 0xC4#8).ph = .idle ∧
    (seqAt .idle .cfg 0xC4#8).initialized = true ∧ (127#8).toNat < 128 := by decide

theorem witness_ForceStopAcceptance : (seqAt .idle .cfg 0xC4#8).ph = .idle ∧
    (seqAt .idle .cfg 0xC4#8).initialized = true := by decide

theorem witness_InitialisationGate : (State.reset.ph = .idle ∧ (127#8).toNat < 128 ∧
      State.reset.initialized = false) ∧
    ((seqAt .idle .cfg 0x44#8).ph = .idle ∧ (seqAt .idle .cfg 0x44#8).initialized = true) := by
  decide

theorem witness_DeviceAddressAbove127 : State.reset.ph = .idle ∧ 128 ≤ (128#8).toNat ∧
    128 ≤ (255#8).toNat := by decide

theorem witness_CommandsWaitWhileBusy : ∃ s t w, s.uw = none ∧ s.ph ≠ .idle ∧ step s = .next t ∧
    s.cmd = some w :=
  ⟨offering (running .writeReg .slaw .wait 0x44#8) 0x80000000#32 [], _, 0x80000000#32, rfl, by decide,
    rfl, rfl⟩

theorem witness_InitConfigures_clauses :
    (∃ s : State, s.ph = .init ∧ s.us = .cfg) ∧ (∃ s : State, selected s.ph s.us ≠ some .init) :=
  ⟨⟨{ State.reset with ph := .init }, by decide⟩, ⟨State.reset, by decide⟩⟩

/-- Every micro-op is selected somewhere, and `(START, GO)` selects none of the others. -/
theorem witness_selected : selected .start .cfg = some .start ∧ selected .start .clr = some .clrStart ∧
    selected .stop .cfg = some .stop ∧ selected .rx .cfg = some .ack ∧
    selected .rstart .wait = some .wait ∧ selected .start .go ≠ some .wait ∧
    selected .rx .stat = some .status ∧ selected .slar .cfg = some .wbyte ∧
    selected .rx .data = some .rbyte ∧ selected .start .go ≠ some .rbyte := by decide

theorem witness_GoLaunches : ∀ p ∈ [Phase.start, .rstart, .slaw, .rega, .value, .slar, .rx, .stop],
    p ≠ .idle ∧ p ≠ .init ∧ (seqAt p .go 0x44#8).ph = p ∧ (seqAt p .go 0x44#8).us = .go ∧
      (seqAt p .cfg 0x44#8).us ≠ .go := by decide

theorem witness_GoHasNoPrimitive : State.reset.ph = .idle ∧ (seqAt .init .cfg 0#8).ph = .init := by
  decide

theorem witness_WaitHolds : (0x7F#8).getLsbD 7 = false ∧ (0x80#8).getLsbD 7 = true := by decide

theorem witness_ReadByteStores : ∃ s u : State,
    (s.buf.wf = true ∧ s.idx.toNat = 254 ∧ s.ctrl.getLsbD 7 = true ∧
      selected s.ph s.us = some .rbyte ∧ s.idx.toNat + 1 = s.len.toNat) ∧
    (u.buf.wf = true ∧ u.idx.toNat = 0 ∧ selected u.ph u.us = some .rbyte ∧
      u.idx.toNat + 1 < u.len.toNat) :=
  ⟨{ running .readBurst .rx .data 0x84#8 with idx := 254#8, len := 255#8 },
    { running .readBurst .rx .data 0x84#8 with len := 2#8 }, by decide⟩

theorem witness_ReadByteFaults : ∃ s : State, s.idx.toNat = 255 :=
  ⟨{ State.reset with idx := 255#8 }, by decide⟩

theorem witness_CheckPasses : ∃ s u v : State, ∃ p,
    (s.stLatch = 0x1F#5 ∧ selected s.ph s.us = some .check ∧ nextPhase s.op s.ph = some p ∧
      s.ph = .slar) ∧
    (u.stLatch = 0#5 ∧ u.ph = .rx ∧ u.us = .chk) ∧
    (v.stLatch = 0#5 ∧ selected v.ph v.us ≠ some .check) :=
  ⟨{ running .readReg .slar .chk 0xC4#8 with stLatch := 0x1F#5 }, running .readReg .rx .chk 0xC4#8,
    State.reset, .rx, by decide⟩

theorem witness_CheckAborts : 1 ≤ (1#4).toNat ∧ (8#4).toNat ≤ 8 ∧
    State.reset.stLatch ≠ 1#5 := by decide

theorem witness_ControllerAccesses : (0 ≠ 1 ∨ 4 ≤ 0) ∧ (2 ≠ 1 ∨ 4 ≤ 3) ∧ (1 ≠ 1 ∨ 4 ≤ 4) ∧
    (0x7F#8).getLsbD 7 = false := by decide

theorem witness_Completion : ∀ p ∈ [InFlight.start, .tx 0xFF#8, .rx true, .rx false], ∃ s : State,
    s.schedule = [.complete Config.stStartOk 0xFF#8] ∧ s.inflight = some p ∧
      (p = .start → s.stopBusy = false) :=
  fun p _ => ⟨{ running .readReg .rx .wait 0x44#8 with
    inflight := some p, schedule := [.complete Config.stStartOk 0xFF#8] }, rfl, rfl, fun _ => rfl⟩

/-- The clause of `BUS_OWNED` and its negation. -/
theorem witness_Completion_owned :
    (InFlight.start = .start ∧
      (Config.stStartOk = Config.stStartOk ∨ Config.stStartOk = Config.stRstartOk)) ∧
    ¬ (InFlight.rx true = .start ∧
      (Config.stStartOk = Config.stStartOk ∨ Config.stStartOk = Config.stRstartOk)) :=
  ⟨⟨rfl, .inl rfl⟩, by simp⟩

theorem witness_CompletionNotEnabled : ∃ s u : State,
    (s.schedule = [.complete 1#5 0#8] ∧ s.inflight = none) ∧
    (u.schedule = [.complete 1#5 0#8] ∧ u.inflight = some .start ∧ u.stopBusy = true) :=
  ⟨{ State.reset with schedule := [.complete 1#5 0#8] },
    { State.reset with
      schedule := [.complete 1#5 0#8], inflight := some .start, stopBusy := true }, by decide⟩

theorem witness_StopDone : ∃ s u : State, (s.schedule = [.stopDone] ∧ s.stopBusy = true) ∧
    (u.schedule = [.stopDone] ∧ u.stopBusy = false) :=
  ⟨{ State.reset with schedule := [.stopDone], stopBusy := true },
    { State.reset with schedule := [.stopDone] }, by decide⟩

theorem witness_ResetFromAnyState : ∃ s : State, s.schedule = [.reset, .seq] ∧ s.busy = true :=
  ⟨{ running .writeReg .slaw .wait 0x44#8 with schedule := [.reset, .seq] }, by decide⟩

theorem witness_ResponseStays : ∃ s t u v : State,
    (s.uw = none ∧ s.ph = .idle ∧ s.resultValid = true ∧ s.cmd = none ∧
      s.schedule.head? ≠ some .reset ∧ step s = .next t) ∧
    (u.uw = none ∧ u.ph = .idle ∧ u.resultValid = true ∧ seqMovesNext u = false ∧
      u.schedule.head? ≠ some .reset ∧ step u = .next v) :=
  ⟨{ seqAt .idle .cfg 0x54#8 with resultValid := true }, _,
    { seqAt .idle .cfg 0x54#8 with
      resultValid := true, stopBusy := true, cmd := some 0#32, schedule := [.stopDone] }, _,
    ⟨rfl, rfl, rfl, rfl, by decide, rfl⟩, ⟨rfl, rfl, rfl, by decide, by decide, rfl⟩⟩

theorem witness_Offer : ∃ s u : State, ∃ v w : CmdWord,
    (s.schedule = [.offer w] ∧ s.cmd = none) ∧ (u.schedule = [.offer w] ∧ u.cmd = some v) :=
  ⟨{ heldWrite with schedule := [.offer 0#32] },
    { heldWrite with schedule := [.offer 0#32], cmd := some 1#32 }, 1#32, 0#32, by decide⟩

/-- The lowest and the highest index of a response of full length. -/
theorem witness_HostReads : ∃ (s : State) (r : Response), s.resultValid = true ∧ s.ph = .idle ∧
    (0#8).toNat < s.count.toNat ∧ (254#8).toNat < s.count.toNat ∧ s.response = some r :=
  ⟨{ seqAt .idle .cfg 0x04#8 with resultValid := true, count := 255#8 }, _, rfl, rfl, by decide,
    by decide, rfl⟩

/-- A state with the invariant in the middle of a write: SEQ held in its second phase. -/
def heldState : State :=
  { running .writeReg .slaw .wait 0x44#8 with
    sla := 0x68#7, dr := 0xD0#8, inflight := some (.tx 0xD0#8), trace := [.start, .tx 0xD0#8] }

/-- A state with the invariant in the last step of a read. -/
def lastStepState : State := running .readReg .stop .go 0x94#8

/-- A state with the invariant with a received byte to store. -/
def dataState : State :=
  { running .readReg .rx .data 0x84#8 with dr := 0xE3#8, sr := 0x58#8, stLatch := 0x0B#5 }

theorem witness_invariant_held : SeqInv heldState ∧ ∃ t, step heldState = .next t :=
  ⟨by unfold SeqInv; decide, _, rfl⟩

theorem witness_invariant_idle_command : SeqInv (offering (seqAt .idle .cfg 0x44#8) 0xFFFFFFFF#32 []) := by
  unfold SeqInv; decide

theorem witness_BufferCanonical : ∃ s t : State, bufferOk s = true ∧ s.buf = [(254, 1#8)] ∧
    step s = .next t :=
  ⟨{ dataState with buf := [(254, 1#8)] }, _, by decide, rfl, rfl⟩

theorem witness_TraceGrows : (∃ t, step lastStepState = .next t) ∧
    lastStepState.schedule.head? ≠ some .reset ∧ seqMovesNext lastStepState = true ∧
    nextInstr lastStepState = some .uGo ∧
    ¬ (seqMovesNext heldState = true ∧ nextInstr heldState = some .uGo) :=
  ⟨⟨_, rfl⟩, by decide, by decide, by decide, by decide⟩

theorem witness_InitializedChanges : ∃ s t u : State,
    (step s = .next t ∧ s.schedule.head? ≠ some .reset ∧ s.initialized = false ∧
      t.initialized = true) ∧ (step heldState = .next u ∧ heldState.initialized = true) :=
  ⟨{ State.reset with ph := .init }, _, _, ⟨rfl, by decide, rfl, rfl⟩, ⟨rfl, rfl⟩⟩

theorem witness_BufferWritten : ∃ t, step dataState = .next t ∧
    dataState.schedule.head? ≠ some .reset ∧ t.buf.read 0 ≠ dataState.buf.read 0 ∧
    SeqInv dataState :=
  ⟨_, rfl, by decide, by decide, by unfold SeqInv; decide⟩

theorem witness_BusyEnds : ∃ t, SeqInv lastStepState ∧ lastStepState.busy = true ∧
    step lastStepState = .next t ∧ t.busy = false ∧
    lastStepState.schedule.head? ≠ some .reset :=
  ⟨_, by unfold SeqInv; decide, by decide, rfl, by decide, by decide⟩

theorem witness_DeadBus : heldState.uw = none ∧
    selected heldState.ph heldState.us = some .wait ∧ heldState.ctrl.getLsbD 7 = false ∧
    ∀ m ∈ [Move.offer 0x80000000#32, .seq], m = .seq ∨ ∃ w, m = .offer w := by
  refine ⟨rfl, by decide, by decide, ?_⟩
  simp

/-- The hypotheses of MismatchAbortsAtItsPhase meet in every awaited phase, and in `RX` for the last
byte of either read and for a byte before it. -/
theorem witness_MismatchAborts :
    ∀ x ∈ [(Phase.start, Op.readReg, 1#8), (.slaw, .readReg, 1#8), (.rega, .readReg, 1#8),
      (.value, .writeReg, 1#8), (.rstart, .readReg, 1#8), (.slar, .readReg, 1#8),
      (.rx, .readReg, 1#8), (.rx, .readBurst, 1#8), (.rx, .readBurst, 2#8)],
    ∃ (s : State) (e st : Status) (entry : TraceEntry),
      s.ph = x.1 ∧ s.op = x.2.1 ∧ s.idx = 0#8 ∧ s.len = x.2.2 ∧
      s.uw = none ∧ s.us = .cfg ∧ s.expected = some e ∧ phaseEntry s = some entry ∧
      (s.ph = .rx → s.idx = s.len - 1#8 → s.op = .readReg ∨ s.op = .readBurst) ∧
      (s.ph.isStart = true → s.stopBusy = false) ∧ st ≠ e ∧
      s.schedule = phaseMoves (if s.ph.isStart then 6 else 5) st 0#8 ++ [] := by
  intro x hx
  have hs : ∃ e entry, ({ running x.2.1 x.1 .cfg 0xC4#8 with len := x.2.2 } : State).expected = some e ∧
      phaseEntry { running x.2.1 x.1 .cfg 0xC4#8 with len := x.2.2 } = some entry ∧
      (x.1 = .rx → x.2.1 = .readReg ∨ x.2.1 = .readBurst) := by
    simp only [List.mem_cons, List.not_mem_nil, or_false] at hx
    rcases hx with rfl | rfl | rfl | rfl | rfl | rfl | rfl | rfl | rfl <;>
      exact ⟨_, _, rfl, rfl, by decide⟩
  obtain ⟨e, entry, he, hn, hr⟩ := hs
  exact ⟨{ running x.2.1 x.1 .cfg 0xC4#8 with
      len := x.2.2, schedule := phaseMoves (if x.1.isStart then 6 else 5) (e + 1#5) 0#8 ++ [] },
    e, e + 1#5, entry, rfl, rfl, rfl, rfl, rfl, rfl, he, hn, fun h _ => hr h, fun _ => rfl,
    status_ne_succ e, rfl⟩

theorem witness_InitCommand : ∃ (s : State) (w : CmdWord), s.uw = none ∧ s.ph = .idle ∧
    s.initialized = false ∧ s.schedule = [] ∧ encode (.init 0x0A#8) = .cmd w ∧ s.cmd = some w :=
  ⟨offering State.reset 0x0000000A#32 [], 0x0000000A#32, by decide⟩

/-- Idle, initialised, and offering the word of `i` under a schedule. -/
theorem offers_offering {i : Instr} {w : CmdWord} (h : encode i = .cmd w) (ms : List Move) :
    Offers i (offering (seqAt .idle .cfg 0x44#8) w ms) :=
  ⟨rfl, rfl, rfl, w, h, rfl⟩

theorem witness_ForceStopCommand : ∃ s, Offers .forceStop s ∧ s.schedule = [] :=
  ⟨_, offers_offering (w := 0x80000000#32) (by decide) [], rfl⟩

theorem witness_WriteTransaction : ∃ s, Offers (.writeReg 0x7F#8 0xFF#8 0xFF#8) s ∧
    (0x7F#8).toNat < 128 ∧ s.stopBusy = false ∧ s.schedule = .seq :: writeMoves ++ [] :=
  ⟨_, offers_offering (w := 0x207FFFFF#32) (by decide) _, by decide, rfl, rfl⟩

theorem witness_SingleRead : ∃ s, Offers (.readReg 0x68#8 0x00#8) s ∧ (0x68#8).toNat < 128 ∧
    s.stopBusy = false ∧ s.buf.wf = true ∧ s.schedule = .seq :: readMoves [0xE3#8] ++ [] :=
  ⟨_, offers_offering (w := 0x40680000#32) (by decide) _, by decide, rfl, rfl, rfl⟩

/-- Lengths 1 and 255. -/
theorem witness_BurstRead : ∀ n ∈ [1, 255], ∃ s,
    Offers (.readBurst 0x68#8 0x33#8 (BitVec.ofNat 8 (List.replicate n 0x1A#8).length)) s ∧
    (0x68#8).toNat < 128 ∧ 1 ≤ (List.replicate n (0x1A#8 : Byte)).length ∧
    (List.replicate n (0x1A#8 : Byte)).length ≤ 255 ∧ s.stopBusy = false ∧ s.buf.wf = true ∧
    s.schedule = .seq :: readMoves (List.replicate n 0x1A#8) ++ [] := by
  intro n hn
  simp only [List.mem_cons, List.not_mem_nil, or_false] at hn
  rcases hn with rfl | rfl
  · exact ⟨_, offers_offering (w := 0x60683301#32) (by decide) _, by decide, by decide, by decide,
      rfl, rfl, rfl⟩
  · have h : (List.replicate 255 (0x1A#8 : Byte)).length = 255 := List.length_replicate
    exact ⟨_, offers_offering (w := 0x606833FF#32) (by rw [h]; decide) _, by decide,
      by rw [h]; decide, by rw [h], rfl, rfl, rfl⟩

/-- `reg[7]` 0 and 1. -/
theorem witness_BurstOfOne : ∃ s u : State, Offers (.readReg 0x68#8 0x33#8) s ∧
    u = { s with cmd := u.cmd } ∧ Offers (.readBurst 0x68#8 0x33#8 1#8) u ∧
    s.stopBusy = false ∧ s.schedule = .seq :: readMoves [0x1A#8] ++ [] ∧
    (0x33#8).getLsbD 7 = false ∧ (0xB3#8).getLsbD 7 = true :=
  ⟨_, offering (seqAt .idle .cfg 0x44#8) 0x60683301#32 (.seq :: readMoves [0x1A#8] ++ []),
    offers_offering (w := 0x40683300#32) (by decide) _, rfl, offers_offering (by decide) _, rfl, rfl,
    by decide, by decide⟩

/-- Offering the word of `i` while the stop of the command before is unfinished (Z5). -/
theorem offers_stopping {i : Instr} {w : CmdWord} (h : encode i = .cmd w) (ms : List Move) :
    Offers i { offering (seqAt .idle .cfg 0x54#8) w ms with stopBusy := true } :=
  ⟨rfl, rfl, rfl, w, h, rfl⟩

theorem witness_UnfinishedStop : ∃ s i, launchesStart i = true ∧ Offers i s ∧
    s.stopBusy = true ∧ 0 ≤ 3 ∧ 3 ≤ 3 :=
  ⟨_, .readBurst 0x7F#8 0x33#8 255#8, by decide,
    offers_stopping (w := 0x607F33FF#32) (by decide) [], rfl, by decide, by decide⟩

theorem witness_BackToBack_write : ∃ s, Offers (.writeReg 0x7F#8 0xFF#8 0xFF#8) s ∧
    (0x7F#8).toNat < 128 ∧ s.stopBusy = true ∧
    s.schedule = backToBack [(1#5, 0#8), (2#5, 0#8)] ++ afterLaunch writeMoves ++ [] :=
  ⟨_, offers_stopping (w := 0x207FFFFF#32) (by decide) _, by decide, rfl, rfl⟩

theorem witness_BackToBack_read : ∃ s, Offers (.readReg 0x68#8 0x00#8) s ∧ (0x68#8).toNat < 128 ∧
    s.stopBusy = true ∧ s.buf.wf = true ∧
    s.schedule = backToBack [] ++ afterLaunch (readMoves [0xE3#8]) ++ [] :=
  ⟨_, offers_stopping (w := 0x40680000#32) (by decide) _, by decide, rfl, rfl, rfl⟩

/-- Lengths 1 and 255. -/
theorem witness_BackToBack_burst : ∀ n ∈ [1, 255], ∃ s,
    Offers (.readBurst 0x68#8 0x33#8 (BitVec.ofNat 8 (List.replicate n 0x1A#8).length)) s ∧
    (0x68#8).toNat < 128 ∧ 1 ≤ (List.replicate n (0x1A#8 : Byte)).length ∧
    (List.replicate n (0x1A#8 : Byte)).length ≤ 255 ∧ s.stopBusy = true ∧ s.buf.wf = true ∧
    s.schedule = backToBack [(1#5, 0#8)] ++ afterLaunch (readMoves (List.replicate n 0x1A#8)) ++ [] := by
  intro n hn
  simp only [List.mem_cons, List.not_mem_nil, or_false] at hn
  rcases hn with rfl | rfl
  · exact ⟨_, offers_stopping (w := 0x60683301#32) (by decide) _, by decide, by decide, by decide,
      rfl, rfl, rfl⟩
  · have h : (List.replicate 255 (0x1A#8 : Byte)).length = 255 := List.length_replicate
    exact ⟨_, offers_stopping (w := 0x606833FF#32) (by rw [h]; decide) _, by decide,
      by rw [h]; decide, by rw [h], rfl, rfl, rfl⟩

/-- Both start phases. -/
theorem witness_StartMismatch : ∀ p ∈ [Phase.start, .rstart], ∃ (s : State) (e st : Status),
    s.ph = p ∧ s.uw = none ∧ s.ph.isStart = true ∧ s.us = .cfg ∧ s.expected = some e ∧
    s.stopBusy = true ∧ st ≠ e ∧
    s.schedule = .seq :: .seq :: waitForStop [(1#5, 0#8)] ++ afterLaunch (startMoves st) ++ [] := by
  intro p hp
  have hs : ∃ e, p.isStart = true ∧ (running .readReg p .cfg 0x54#8).expected = some e := by
    simp only [List.mem_cons, List.not_mem_nil, or_false] at hp
    rcases hp with rfl | rfl <;> exact ⟨_, rfl, rfl⟩
  obtain ⟨e, hstart, he⟩ := hs
  exact ⟨{ running .readReg p .cfg 0x54#8 with
      stopBusy := true
      schedule := .seq :: .seq :: waitForStop [(1#5, 0#8)] ++ afterLaunch (startMoves (e + 1#5)) ++ [] },
    e, e + 1#5, rfl, rfl, hstart, rfl, he, rfl, status_ne_succ e, rfl⟩

theorem witness_LiveBus : SeqInv heldState ∧ heldState.busy = true :=
  ⟨witness_invariant_held.1, by decide⟩

theorem witness_RoundTrip : ∃ (y : RefSystem) (ww wr : CmdWord),
    encode (.writeReg 0x68#8 0x7F#8 0xFF#8) = .cmd ww ∧ encode (.readReg 0x68#8 0x7F#8) = .cmd wr ∧
    (0x68#8).toNat < 128 ∧ (0x7F#8).toNat < 128 ∧ y.slave.addr = (0x68#8).setWidth 7 ∧
    y.slave.rf.wf = true ∧ y.state.uw = none ∧ y.state.ph = .idle ∧ y.state.initialized = true ∧
    y.state.inflight = none ∧ y.state.stopBusy = false ∧ y.state.busOwned = false ∧
    y.state.buf.wf = true :=
  ⟨⟨⟨0x68#7, [(0, 0xE3#8)], 0#7, false, .idle, true⟩, seqAt .idle .cfg 0x44#8⟩, 0x20687FFF#32,
    0x40687F00#32, by decide⟩

end Sys2Proof.Tests
end

section
/-! PROOFS. The ports HOST sees (spec/00_scope.md R16, R17): the offer and the response. -/

namespace Sys2Proof.Machine

/-- `BUSY` is 0 exactly in `IDLE` (R35). -/
@[simp] theorem State.busy_eq_false_iff {s : State} : s.busy = false ↔ s.ph = .idle := by
  simp [State.busy]

/-- `cmd_ready` is 1 exactly in `IDLE` (R16). -/
theorem State.cmdReady_iff {s : State} : s.cmdReady = true ↔ s.ph = .idle := by
  simp [State.cmdReady]

/-- HOST's offer takes up the move and answers the state with the offer made (R16). -/
theorem step_offer {s : State} {w : CmdWord} {ms : List Move} (h : s.schedule = .offer w :: ms) :
    step s = .next (offer w (s.setSchedule ms)) :=
  step_cons h

/-- Inside the response HOST reads the buffer (R17, R85). -/
theorem State.bufData_inside {s : State} {i : Byte} (hv : s.resultValid = true)
    (hp : s.ph = .idle) (hi : i.toNat < s.count.toNat) : s.bufData i = s.buf.read i.toNat := by
  have hb : s.busy = false := State.busy_eq_false_iff.mpr hp
  simp [State.bufData, hv, hb, hi]

/-- Byte `i` of a response is the buffer's, at every index below its count (R103). -/
theorem State.response_byte {s : State} {r : Response} {i : Nat} (hr : s.response = some r)
    (hi : i < s.count.toNat) : r.bytes[i]? = some (s.buf.read i) := by
  unfold State.response at hr
  split at hr
  · cases hr
    simp [hi]
  · cases hr

end Sys2Proof.Machine

open Sys2Proof Sys2Proof.Machine

/-- Settles O56: the offer's two cases, a free port and a taken one. -/
theorem offerPutsCommandOnPort : Obligations.OfferPutsCommandOnPort := by
  intro s w ms hs
  rw [step_offer hs]
  constructor
  · intro hc
    rw [offer_free (s := s.setSchedule ms) hc w]
    rfl
  · intro v hc
    rw [offer_taken (s := s.setSchedule ms) hc w]
    rfl

/-- Settles O57: inside the response both HOST's read and the response's byte are the buffer's. -/
theorem hostReadsResponse : Obligations.HostReadsResponse := by
  intro s
  refine ⟨State.cmdReady_iff, rfl, rfl, rfl, fun hv hp i hi => ?_⟩
  have hread : s.bufData i = s.buf.read i.toNat := State.bufData_inside hv hp hi
  exact ⟨hread, fun r hr => hread ▸ State.response_byte hr hi⟩

end

section
/-! PROOFS. Progress: where the invariant holds no step faults, and the only step that is refused is
SEQ's turning a command away in `IDLE` (spec/00_scope.md R13, spec/30_encoding.md R106 to R109). -/

namespace Sys2Proof.Machine

/-! ## Commands -/

/-- R109 is the only ground on which `INIT` is refused. -/
theorem ofCommand_of_initGate {s : State} {r : Refusal} (h : initGate s = some r) :
    r.ofCommand = true := by
  unfold initGate at h
  split at h <;> cases h
  rfl

/-- R109 is the only ground on which an uninitialised block refuses a command. -/
theorem ofCommand_of_initializedGate {s : State} {r : Refusal} (h : initializedGate s = some r) :
    r.ofCommand = true := by
  unfold initializedGate at h
  split at h <;> cases h
  rfl

/-- R108 and R109 are the only grounds on which a transaction is refused. -/
theorem ofCommand_of_transactionGate {a : Byte} {s : State} {r : Refusal}
    (h : transactionGate a s = some r) : r.ofCommand = true := by
  unfold transactionGate at h
  split at h
  · exact ofCommand_of_initializedGate h
  · cases h
    rfl

/-- A command is an acceptance, behind a gate whose refusals are those of R108 and R109 (R170). -/
theorem exec_command_eq_accept {i : Instr} (h : kindOf i = none) (s : State) :
    ∃ g o f, exec i s = accept g o f s ∧ ∀ r, g = some r → r.ofCommand = true := by
  unfold exec
  cases i with
  | init d => exact ⟨_, _, _, rfl, fun _ => ofCommand_of_initGate⟩
  | writeReg a r v => exact ⟨_, _, _, rfl, fun _ => ofCommand_of_transactionGate⟩
  | readReg a r => exact ⟨_, _, _, rfl, fun _ => ofCommand_of_transactionGate⟩
  | readBurst a r n => exact ⟨_, _, _, rfl, fun _ => ofCommand_of_transactionGate⟩
  | forceStop => exact ⟨_, _, _, rfl, fun _ => ofCommand_of_initializedGate⟩
  | _ => cases h

/-- In `IDLE` a gate that refuses turns the command away (R13). -/
theorem accept_refused {s : State} (hb : s.busy = false) (r : Refusal) (o : Op)
    (f : State → State) : accept (some r) o f s = .refused r := by
  simp [accept, hb]

/-- A command is accepted, waits, or is turned away with a refusal of R108 or R109. -/
theorem exec_command_next_or_refused {i : Instr} (h : kindOf i = none) (s : State) :
    (∃ t, exec i s = .next t) ∨ (∃ r, exec i s = .refused r ∧ r.ofCommand = true) := by
  obtain ⟨g, o, f, he, hg⟩ := exec_command_eq_accept h s
  rw [he]
  cases hb : s.busy with
  | true => exact .inl ⟨s, accept_busy hb g o f⟩
  | false =>
    cases g with
    | none => exact .inl ⟨_, accept_idle hb o f⟩
    | some r => exact .inr ⟨r, accept_refused hb r o f, hg r rfl⟩

/-- The field checks give back the instruction they were asked about (R107, R108). -/
theorem eq_of_cmdChecked_ok {z a : Bool} {i j : Instr} (h : cmdChecked z a i = .ok j) : j = i := by
  unfold cmdChecked at h
  split_ifs at h
  cases h
  rfl

/-- A command word decodes to a command, never to a micro-op (R94). -/
theorem kindOf_of_decodeCmd {w : CmdWord} {i : Instr} (h : decodeCmd w = .ok i) :
    kindOf i = none := by
  unfold decodeCmd at h
  split at h
  case h_6 => cases h
  all_goals
    rw [eq_of_cmdChecked_ok h]
    rfl

/-- A word on the port that is no instruction is refused (R106 to R108). -/
theorem seqStep_undecodable {s : State} {w : CmdWord} {e : Reject} (hu : s.uw = none)
    (hp : s.ph = .idle) (hc : s.cmd = some w) (he : decodeCmd w = .error e) :
    seqStep s = .refused (.undecodable e) := by
  simp [seqStep, fetch, hu, hp, hc, he, runDecoded]

/-- In `IDLE` SEQ goes on, or turns the command on the port away with a refusal of R106 to R109. -/
theorem seqStep_idle_next_or_refused {s : State} (hu : s.uw = none) (hp : s.ph = .idle) :
    (∃ t, seqStep s = .next t) ∨
      (∃ r, seqStep s = .refused r ∧ r.ofCommand = true ∧ s.ph = .idle ∧ s.cmd ≠ none) := by
  cases hc : s.cmd with
  | none => exact .inl ⟨s, seqStep_nothing hu hp hc⟩
  | some w =>
    cases hd : decodeCmd w with
    | error e => exact .inr ⟨_, seqStep_undecodable hu hp hc hd, rfl, hp, nofun⟩
    | ok i =>
      rw [seqStep_command hu hp hc hd]
      obtain hnext | ⟨r, hr, hcmd⟩ :=
        exec_command_next_or_refused (kindOf_of_decodeCmd hd) (s.setCmd none)
      · exact .inl hnext
      · exact .inr ⟨r, hr, hcmd, hp, nofun⟩

/-! ## What the rows of R150 have in common -/

/-- A legal pair outside `IDLE` selects a micro-op (R150). -/
theorem exists_selected {s : State} (hpc : pcOk s = true) (hp : s.ph ≠ .idle) :
    ∃ k, selected s.ph s.us = some k := by
  simpa [pcOk, hp, Option.isSome_iff_exists] using hpc

/-- `U_GO` is selected in phases that have a primitive (R126). -/
theorem exists_kind_of_selected_go {p : Phase} {u : MicroStep} (h : selected p u = some .go) :
    ∃ k, p.kind = some k := by
  rw [← Option.isSome_iff_exists]
  revert h
  cases p <;> cases u <;> decide

/-- `U_RBYTE` is selected in `RX` alone (R154). -/
theorem eq_rx_of_selected_rbyte {p : Phase} {u : MicroStep} (h : selected p u = some .rbyte) :
    p = .rx := by
  revert h
  cases p <;> cases u <;> decide

/-- `U_WBYTE` is selected in the transmit phases (R126, R153). -/
theorem kind_tx_of_selected_wbyte {p : Phase} {u : MicroStep} (h : selected p u = some .wbyte) :
    p.kind = some .tx := by
  revert h
  cases p <;> cases u <;> decide

/-- A transmit phase stages a byte (R158). -/
theorem exists_phaseByte_of_kind_tx {s : State} (h : s.ph.kind = some .tx) :
    ∃ b, s.phaseByte = some b := by
  unfold State.phaseByte
  cases hp : s.ph with
  | slaw | rega | value | slar => exact ⟨_, rfl⟩
  | idle | start | rstart | rx | stop | init => simp [hp, Phase.kind] at h

/-- `U_CHECK` is selected in the awaited phases: all but `IDLE`, `INIT` and `STOP` (R150). -/
theorem awaited_of_selected_check {p : Phase} {u : MicroStep} (h : selected p u = some .check) :
    p ≠ .idle ∧ p ≠ .init ∧ p ≠ .stop := by
  revert h
  cases p <;> cases u <;> decide

/-- An awaited phase expects a status (R158). -/
theorem exists_expected {s : State} (h : s.ph ≠ .idle ∧ s.ph ≠ .init ∧ s.ph ≠ .stop) :
    ∃ e, s.expected = some e := by
  unfold State.expected
  cases hp : s.ph with
  | start | slaw | rega | value | rstart | slar | rx => exact ⟨_, rfl⟩
  | idle | init | stop => simp [hp] at h

/-- An awaited phase has a bus error kind to report on a mismatch, as only a read is ever in `RX`
(R158, R177). -/
theorem exists_errorKind {s : State} (h : s.ph ≠ .idle ∧ s.ph ≠ .init ∧ s.ph ≠ .stop)
    (hop : opFitsPhase s.op s.ph = true) : ∃ k, s.errorKind = some k ∧ k.isBusError = true := by
  unfold State.errorKind
  cases hp : s.ph with
  | start | slaw | rega | value | rstart | slar => exact ⟨_, rfl, rfl⟩
  | idle | init | stop => simp [hp] at h
  | rx =>
    have hread : s.op = .readReg ∨ s.op = .readBurst := by simpa [hp, opFitsPhase] using hop
    cases s.isLast with
    | false => exact ⟨_, rfl, rfl⟩
    | true => obtain ho | ho := hread <;> rw [ho] <;> exact ⟨_, rfl, rfl⟩

/-- R177 has a next phase for every awaited phase but `RX` that the command goes through. -/
theorem exists_nextPhase {o : Op} {p : Phase} (h : p ≠ .idle ∧ p ≠ .init ∧ p ≠ .stop)
    (hrx : p ≠ .rx) (hop : opFitsPhase o p = true) : ∃ q, nextPhase o p = some q := by
  rw [← Option.isSome_iff_exists]
  revert h hrx hop
  cases p <;> cases o <;> decide

/-! ## Micro-ops -/

/-- A micro-op other than the check that ends in sequencing answers a next state. -/
theorem exists_next_of_eq_advance {x : Outcome} {k : UopKind} {u : State} (h : x = advance k u)
    (hk : k ≠ .check) : ∃ t, x = .next t :=
  h ▸ advance_next hk u

/-- `U_WAIT` holds or sequences (R128). -/
theorem execUWait_next (s : State) : ∃ t, execUWait s = .next t := by
  rw [execUWait_eq]
  split
  · exact advance_next (by decide) s
  · exact ⟨s, rfl⟩

/-- `U_STATUS` never stops, inside the window or outside it (R140). -/
theorem execUStatus_next (s : State) : ∃ t, execUStatus s = .next t :=
  exists_next_of_eq_advance (k := .status) (by rw [execUStatus, memRead_sr, orRefuse_ok]) (by decide)

/-- `U_RBYTE` never stops at an index of `BUF`, inside the window or outside it (R142). -/
theorem execURbyte_next {s : State} (hi : s.idx.toNat < Config.maxBurst) :
    ∃ t, execURbyte s = .next t :=
  exists_next_of_eq_advance (k := .rbyte)
    (by rw [execURbyte, if_pos hi, memRead_dr, orRefuse_ok]) (by decide)

/-- In `RX` the index is one of `BUF`: it is below `LEN` (R28, R142). -/
theorem idx_lt_maxBurst {s : State} (h : idxOk s = true) (hp : s.ph = .rx) :
    s.idx.toNat < Config.maxBurst := by
  have hlt : s.idx.toNat < s.len.toNat := by simpa [idxOk, hp] using h
  have hlen : s.len.toNat < 256 := s.len.isLt
  simp only [Config.maxBurst]
  omega

/-- A check that passes in a phase of its command has a row of R177 to go on with. -/
theorem advance_check_next {s : State} (h : selected s.ph s.us = some .check)
    (hop : opFitsPhase s.op s.ph = true) : ∃ t, advance .check s = .next t := by
  have hseq : ∃ t, sequel .check s = some t := by
    by_cases hrx : s.ph = .rx
    · simp [sequel, hrx]
    · obtain ⟨q, hq⟩ := exists_nextPhase (awaited_of_selected_check h) hrx hop
      simp [sequel, hrx, hq]
  obtain ⟨t, ht⟩ := hseq
  exact ⟨t, advance_selected h ht⟩

/-- A check with a bus error kind passes or aborts, and never stops (R156). -/
theorem execUCheck_next {s : State} {k : Result} (h : selected s.ph s.us = some .check)
    (hop : opFitsPhase s.op s.ph = true) (hk : k.isBusError = true) (e : Status) :
    ∃ t, execUCheck k.code e s = .next t := by
  by_cases he : s.stLatch = e
  · rw [execUCheck_pass he]
    exact advance_check_next h hop
  · exact ⟨_, execUCheck_abort he (ofErrCode_code hk)⟩

/-- Where the pair selects a micro-op, SEQ issues it with its operands and it answers a next state. -/
theorem issue_next {s : State} {k : UopKind} (hk : selected s.ph s.us = some k)
    (hop : opFitsPhase s.op s.ph = true) (hidx : idxOk s = true) :
    ∃ i, issue s = .ok i ∧ ∃ t, exec i s = .next t := by
  cases k with
  | init =>
    exact ⟨.uInit s.divr, by simp [issue, hk],
      exists_next_of_eq_advance (execUInit_eq _ s) (by decide)⟩
  | start =>
    exact ⟨.uStart, by simp [issue, hk], exists_next_of_eq_advance (execUStart_eq s) (by decide)⟩
  | clrStart =>
    exact ⟨.uClrStart, by simp [issue, hk],
      exists_next_of_eq_advance (execUClrStart_eq s) (by decide)⟩
  | stop =>
    exact ⟨.uStop, by simp [issue, hk], exists_next_of_eq_advance (execUStop_eq s) (by decide)⟩
  | go =>
    obtain ⟨p, hp⟩ := exists_kind_of_selected_go hk
    exact ⟨.uGo, by simp [issue, hk], exists_next_of_eq_advance (execUGo_eq hp) (by decide)⟩
  | wait => exact ⟨.uWait, by simp [issue, hk], execUWait_next s⟩
  | ack =>
    exact ⟨.uAck s.ackLevel, by simp [issue, hk],
      exists_next_of_eq_advance (execUAck_eq _ s) (by decide)⟩
  | status => exact ⟨.uStatus, by simp [issue, hk], execUStatus_next s⟩
  | wbyte =>
    obtain ⟨b, hb⟩ := exists_phaseByte_of_kind_tx (kind_tx_of_selected_wbyte hk)
    exact ⟨.uWbyte b, by simp [issue, hk, hb],
      exists_next_of_eq_advance (execUWbyte_eq b s) (by decide)⟩
  | rbyte =>
    exact ⟨.uRbyte, by simp [issue, hk],
      execURbyte_next (idx_lt_maxBurst hidx (eq_rx_of_selected_rbyte hk))⟩
  | check =>
    obtain ⟨e, he⟩ := exists_expected (awaited_of_selected_check hk)
    obtain ⟨r, hr, hbus⟩ := exists_errorKind (awaited_of_selected_check hk) hop
    exact ⟨.uCheck r.code e, by simp [issue, hk, he, hr], execUCheck_next hk hop hbus e⟩

/-! ## SEQ's step and every agent's -/

/-- From a state with the invariant SEQ goes on, or turns a command away in `IDLE`. -/
theorem seqStep_next_or_refused {s : State} (h : SeqInv s) :
    (∃ t, seqStep s = .next t) ∨
      (∃ r, seqStep s = .refused r ∧ r.ofCommand = true ∧ s.ph = .idle ∧ s.cmd ≠ none) := by
  obtain ⟨hu, -, -, hpc, hop, -, hidx, -⟩ := h
  by_cases hp : s.ph = .idle
  · exact seqStep_idle_next_or_refused hu hp
  · obtain ⟨k, hk⟩ := exists_selected hpc hp
    obtain ⟨i, hi, ht⟩ := issue_next hk hop hidx
    rw [seqStep_busy hu hp hi]
    exact .inl ht

/-- The invariant does not speak of the moves to come. -/
theorem seqInv_setSchedule {s : State} (ms : List Move) : SeqInv (s.setSchedule ms) ↔ SeqInv s :=
  Iff.rfl

end Sys2Proof.Machine

open Sys2Proof Sys2Proof.Machine

/-- Settles O39: only SEQ's move can stop, and it stops only on a command in `IDLE`. -/
theorem safeStatesStopOnlyOnRefusedCommands :
    Obligations.SafeStatesStopOnlyOnRefusedCommands := by
  intro s hs
  cases hm : s.schedule with
  | nil =>
    rw [step_nil hm]
    exact seqStep_next_or_refused hs
  | cons m ms =>
    rw [step_cons hm]
    cases m with
    | seq => exact seqStep_next_or_refused ((seqInv_setSchedule ms).mpr hs)
    | complete st d => exact .inl ⟨_, rfl⟩
    | stopDone => exact .inl ⟨_, rfl⟩
    | offer w => exact .inl ⟨_, rfl⟩
    | reset => exact .inl ⟨_, rfl⟩

end

section
/-! PROOFS. What a step writes of the state (spec/10_state.md): the frame of every meaning and of
every move, and from it the rules on `TRACE` (R44), `INITIALIZED` (R34), `BUF` (R30), the command port
(R35) and the response (R180, R224). -/

namespace Sys2Proof.Machine

/-! ## The three registers with a single writer -/

/-- `INITIALIZED`, `BUF` and `TRACE` are as they were. -/
def Kept (s t : State) : Prop :=
  t.initialized = s.initialized ∧ t.buf = s.buf ∧ t.trace = s.trace

theorem Kept.initialized {s t : State} (h : Kept s t) : t.initialized = s.initialized := h.1

theorem Kept.buf {s t : State} (h : Kept s t) : t.buf = s.buf := h.2.1

theorem Kept.trace {s t : State} (h : Kept s t) : t.trace = s.trace := h.2.2

theorem Kept.refl (s : State) : Kept s s := ⟨rfl, rfl, rfl⟩

theorem Kept.trans {s t u : State} (h : Kept s t) (h' : Kept t u) : Kept s u :=
  ⟨h'.initialized.trans h.initialized, h'.buf.trans h.buf, h'.trace.trans h.trace⟩

/-- What the instruction `i` makes of `INITIALIZED`, `BUF` and `TRACE`: each has one writer, `U_INIT`
(R34), `U_RBYTE` (R30, R142) and `U_GO` (R44, R125). -/
inductive Recorded (i : Instr) (s t : State) : Prop where
  | kept (hi : i ≠ .uGo) (h : Kept s t)
  | init (d : Byte) (hi : i = .uInit d) (h : Kept (s.setInitialized true) t)
  | go (e : TraceEntry) (hi : i = .uGo) (h : Kept (s.addTrace e) t)
  | byte (v : Byte) (hi : i = .uRbyte) (hidx : s.idx.toNat < Config.maxBurst)
      (h : Kept (s.setBuf (s.buf.write s.idx.toNat v)) t)

/-- What keeps the three registers may follow the writer. -/
theorem Recorded.trans_kept {i : Instr} {s t u : State} (h : Recorded i s t) (h' : Kept t u) :
    Recorded i s u := by
  cases h with
  | kept hi h => exact .kept hi (h.trans h')
  | init d hi h => exact .init d hi (h.trans h')
  | go e hi h => exact .go e hi (h.trans h')
  | byte v hi hidx h => exact .byte v hi hidx (h.trans h')

/-- Taking a word off its port and a move off the schedule matters to none of the three registers. -/
theorem Recorded.of_ports {i : Instr} {s t : State} {c : Option CmdWord} {w : Option MicroWord}
    {ms : List Move} (h : Recorded i { s with cmd := c, uw := w, schedule := ms } t) :
    Recorded i s t := by
  cases h with
  | kept hi h => exact .kept hi h
  | init d hi h => exact .init d hi h
  | go e hi h => exact .go e hi h
  | byte v hi hidx h => exact .byte v hi hidx h

/-- `U_GO` appends one entry to `TRACE` (R44). -/
theorem Recorded.trace_of_go {s t : State} (h : Recorded .uGo s t) :
    ∃ e, t.trace = s.trace ++ [e] := by
  cases h with
  | kept hi => exact absurd rfl hi
  | init d hi => cases hi
  | go e _ h => exact ⟨e, h.trace⟩
  | byte v hi => cases hi

/-- No other instruction appends to `TRACE` (R44). -/
theorem Recorded.trace_of_ne_go {i : Instr} {s t : State} (h : Recorded i s t) (hi : i ≠ .uGo) :
    t.trace = s.trace := by
  cases h with
  | kept _ h => exact h.trace
  | init d _ h => exact h.trace
  | go e hgo => exact absurd hgo hi
  | byte v _ _ h => exact h.trace

/-- `INITIALIZED` is as it was, or `U_INIT` set it (R34, R121). -/
theorem Recorded.initialized_cases {i : Instr} {s t : State} (h : Recorded i s t) :
    t.initialized = s.initialized ∨ (t.initialized = true ∧ ∃ d, i = .uInit d) := by
  cases h with
  | kept _ h => exact .inl h.initialized
  | init d hi h => exact .inr ⟨h.initialized, d, hi⟩
  | go e _ h => exact .inl h.initialized
  | byte v _ _ h => exact .inl h.initialized

/-- `BUF` is as it was, or `U_RBYTE` wrote one byte, at `IDX` (R30, R142). -/
theorem Recorded.buf_cases {i : Instr} {s t : State} (h : Recorded i s t) :
    t.buf = s.buf ∨
      (i = .uRbyte ∧ s.idx.toNat < Config.maxBurst ∧ ∃ v, t.buf = s.buf.write s.idx.toNat v) := by
  cases h with
  | kept _ h => exact .inl h.buf
  | init d _ h => exact .inl h.buf
  | go e _ h => exact .inl h.buf
  | byte v hi hidx h => exact .inr ⟨hi, hidx, v, h.buf⟩

theorem bufferOk_iff {s : State} :
    bufferOk s = true ↔ s.buf.wf = true ∧ s.buf.bounded = true := by
  simp [bufferOk]

/-- The buffer stays canonical and within its bound (R30). -/
theorem Recorded.bufferOk {i : Instr} {s t : State} (h : Recorded i s t)
    (hs : bufferOk s = true) : bufferOk t = true := by
  obtain ⟨hwf, hbd⟩ := bufferOk_iff.mp hs
  rw [bufferOk_iff]
  obtain hbuf | ⟨-, hidx, v, hbuf⟩ := h.buf_cases
  · exact hbuf ▸ ⟨hwf, hbd⟩
  · exact hbuf ▸ ⟨Memory.wf_write hwf _ v, Memory.bounded_write hbd hidx v⟩

/-! ## The meanings of the commands -/

/-- A command writes what its acceptance loads and, for the burst of length 0, the response
(R170, R176); it touches neither the controller nor a port. -/
theorem exec_command_frame {i : Instr} {s t : State} (hi : kindOf i = none)
    (h : exec i s = .next t) :
    t = { s with
      op := t.op, sla := t.sla, reg := t.reg, val := t.val, divr := t.divr, len := t.len
      result := t.result, resultValid := t.resultValid, count := t.count
      ph := t.ph, us := t.us } := by
  cases i with
  | init d =>
    rw [exec, execInit] at h
    obtain ⟨-, rfl⟩ | ⟨-, -, rfl⟩ := accept_cases h <;> rfl
  | writeReg a r v =>
    rw [exec, execWriteReg] at h
    obtain ⟨-, rfl⟩ | ⟨-, -, rfl⟩ := accept_cases h <;> rfl
  | readReg a r =>
    rw [exec, execReadReg] at h
    obtain ⟨-, rfl⟩ | ⟨-, -, rfl⟩ := accept_cases h <;> rfl
  | readBurst a r n =>
    rw [exec, execReadBurst] at h
    obtain ⟨-, rfl⟩ | ⟨-, -, rfl⟩ := accept_cases h
    · rfl
    · by_cases hn : n = 0#8 <;> simp only [hn, if_true, if_false] <;> rfl
  | forceStop =>
    rw [exec, execForceStop] at h
    obtain ⟨-, rfl⟩ | ⟨-, -, rfl⟩ := accept_cases h <;> rfl
  | _ => cases hi

/-- While `BUSY` a command waits (R35, R170). -/
theorem exec_command_busy {i : Instr} {s : State} (hb : s.busy = true) (hi : kindOf i = none) :
    exec i s = .next s := by
  obtain ⟨g, o, f, he, -⟩ := exec_command_eq_accept hi s
  rw [he]
  exact accept_busy hb g o f

/-! ## The meanings of the micro-ops -/

/-- What a micro-op does before sequencing: it leaves the pair `(PH, US)`, the accepted command, its
operands, the response and the ports alone. -/
structure UopEffect (i : Instr) (s u : State) : Prop where
  frame : u = { s with
    initialized := u.initialized, buf := u.buf, trace := u.trace, stLatch := u.stLatch
    ctrl := u.ctrl, br := u.br, dr := u.dr, inflight := u.inflight, stopBusy := u.stopBusy
    draws := u.draws }
  recorded : Recorded i s u

/-- How a micro-op of the kind `k` ends after its effect (R150, R157). -/
inductive UopEnd (k : UopKind) (u t : State) : Prop where
  | stays (h : t = u)
  | goesOn (h : sequel k u = some t)
  | aborts (r : Result) (hr : r.isBusError = true) (h : t = raiseError r u)

theorem UopEnd.of_advance {k : UopKind} {u t : State} (h : advance k u = .next t) :
    UopEnd k u t := by
  obtain ⟨-, ht⟩ | ⟨-, ht⟩ := advance_cases h
  · exact .stays ht
  · exact .goesOn ht

/-- The launch of any kind appends one entry to `TRACE` (R72). -/
theorem launch_frame (k : PrimKind) (s : State) :
    ∃ e p b, launch k s = { s.addTrace e with inflight := p, stopBusy := b } := by
  cases k with
  | start | tx | rx | stop => exact ⟨_, _, _, rfl⟩

theorem readSr_draws (s : State) : ∃ n, (readSr s).2 = { s with draws := n } := by
  obtain h | h := readSr_state s <;> exact ⟨_, h⟩

theorem readDr_draws (s : State) : ∃ n, (readDr s).2 = { s with draws := n } := by
  obtain h | h := readDr_state s <;> exact ⟨_, h⟩

/-- The kinds a check can report are the eight bus errors (R98, R102). -/
theorem isBusError_of_ofErrCode {c : BitVec 4} {r : Result} (h : Result.ofErrCode c = some r) :
    r.isBusError = true := by
  unfold Result.ofErrCode at h
  split at h <;> cases h <;> rfl

/-- An effect that touches none of the three registers. -/
theorem UopEffect.of_kept {i : Instr} {s u : State} (hi : i ≠ .uGo) (hk : Kept s u)
    (hf : u = { s with
      stLatch := u.stLatch, ctrl := u.ctrl, br := u.br, dr := u.dr, inflight := u.inflight
      stopBusy := u.stopBusy, draws := u.draws }) : UopEffect i s u := by
  refine ⟨?_, .kept hi hk⟩
  rw [hf]

theorem UopEffect.refl {i : Instr} {s : State} (hi : i ≠ .uGo) : UopEffect i s s :=
  .of_kept hi (.refl s) rfl

theorem UopEffect.ph {i : Instr} {s u : State} (h : UopEffect i s u) : u.ph = s.ph := by
  rw [h.frame]

theorem UopEffect.cmd {i : Instr} {s u : State} (h : UopEffect i s u) : u.cmd = s.cmd := by
  rw [h.frame]

theorem UopEffect.okCount {i : Instr} {s u : State} (h : UopEffect i s u) :
    u.okCount = s.okCount := by
  rw [h.frame]
  rfl

/-- Every micro-op is an effect and an ending (R120, R150). -/
theorem exec_uop_cases {i : Instr} {k : UopKind} {s t : State} (hk : kindOf i = some k)
    (h : exec i s = .next t) : ∃ u, UopEnd k u t ∧ UopEffect i s u := by
  cases i with
  | uInit d =>
    cases hk
    rw [exec, execUInit_eq] at h
    exact ⟨_, .of_advance h, ⟨rfl, .init d rfl ⟨rfl, rfl, rfl⟩⟩⟩
  | uStart =>
    cases hk
    rw [exec, execUStart_eq] at h
    exact ⟨_, .of_advance h, .of_kept nofun ⟨rfl, rfl, rfl⟩ rfl⟩
  | uClrStart =>
    cases hk
    rw [exec, execUClrStart_eq] at h
    exact ⟨_, .of_advance h, .of_kept nofun ⟨rfl, rfl, rfl⟩ rfl⟩
  | uStop =>
    cases hk
    rw [exec, execUStop_eq] at h
    exact ⟨_, .of_advance h, .of_kept nofun ⟨rfl, rfl, rfl⟩ rfl⟩
  | uGo =>
    cases hk
    rw [exec] at h
    cases hp : s.ph.kind with
    | none =>
      rw [execUGo_refused hp] at h
      cases h
    | some p =>
      rw [execUGo_eq hp] at h
      obtain ⟨e, q, b, he⟩ :=
        launch_frame p (s.setCtrl (storeCtrl s.ctrl (goByte (s.ctrl &&& ctrlUsedMask))))
      rw [he] at h
      exact ⟨_, .of_advance h, ⟨rfl, .go e rfl ⟨rfl, rfl, rfl⟩⟩⟩
  | uWait =>
    cases hk
    rw [exec, execUWait_eq] at h
    split at h
    · exact ⟨s, .of_advance h, .refl nofun⟩
    · cases h
      exact ⟨s, .stays rfl, .refl nofun⟩
  | uAck e =>
    cases hk
    rw [exec, execUAck_eq] at h
    exact ⟨_, .of_advance h, .of_kept nofun ⟨rfl, rfl, rfl⟩ rfl⟩
  | uStatus =>
    cases hk
    obtain ⟨n, hn⟩ := readSr_draws s
    rw [exec, execUStatus, memRead_sr, orRefuse_ok, hn] at h
    exact ⟨_, .of_advance h, .of_kept nofun ⟨rfl, rfl, rfl⟩ rfl⟩
  | uWbyte b =>
    cases hk
    rw [exec, execUWbyte_eq] at h
    exact ⟨_, .of_advance h, .of_kept nofun ⟨rfl, rfl, rfl⟩ rfl⟩
  | uRbyte =>
    cases hk
    rw [exec, execURbyte] at h
    split at h
    next hidx =>
      obtain ⟨n, hn⟩ := readDr_draws s
      rw [memRead_dr, orRefuse_ok, hn] at h
      exact ⟨_, .of_advance h, ⟨rfl, .byte _ rfl hidx ⟨rfl, rfl, rfl⟩⟩⟩
    next => cases h
  | uCheck c e =>
    cases hk
    refine ⟨s, ?_, .refl nofun⟩
    rw [exec, execUCheck] at h
    split at h
    · exact .of_advance h
    · split at h
      next r hr =>
        cases h
        exact .aborts r (isBusError_of_ofErrCode hr) rfl
      next => cases h
  | _ => cases hk

/-- Sequencing writes the pair `(PH, US)`, `IDX` and the response, and nothing else (R150). -/
theorem sequel_frame {k : UopKind} {u t : State} (h : sequel k u = some t) :
    t = { u with
      ph := t.ph, us := t.us, idx := t.idx, result := t.result, count := t.count
      resultValid := t.resultValid } := by
  cases k with
  | init | start | stop | wbyte | ack | wait | status | clrStart => cases h; rfl
  | go =>
    simp only [sequel, Option.some.injEq] at h
    subst h
    split <;> rfl
  | rbyte =>
    simp only [sequel, Option.some.injEq] at h
    subst h
    split <;> rfl
  | check =>
    simp only [sequel] at h
    split at h
    · cases h; rfl
    · obtain ⟨p, -, rfl⟩ := Option.map_eq_some_iff.mp h
      split <;> rfl

/-- The ending of a micro-op keeps the three registers and the command on the port. -/
theorem UopEnd.kept {k : UopKind} {u t : State} (h : UopEnd k u t) :
    Kept u t ∧ t.cmd = u.cmd := by
  cases h with
  | stays h => subst h; exact ⟨.refl t, rfl⟩
  | goesOn h => rw [sequel_frame h]; exact ⟨⟨rfl, rfl, rfl⟩, rfl⟩
  | aborts r _ h => subst h; exact ⟨⟨rfl, rfl, rfl⟩, rfl⟩

/-! ## Every meaning -/

/-- Every instruction that answers a next state writes the three registers as their rules say, and
leaves the command port alone. -/
theorem exec_recorded {i : Instr} {s t : State} (h : exec i s = .next t) :
    Recorded i s t ∧ t.cmd = s.cmd := by
  cases hk : kindOf i with
  | none =>
    have hi : i ≠ .uGo := by rintro rfl; cases hk
    rw [exec_command_frame hk h]
    exact ⟨.kept hi ⟨rfl, rfl, rfl⟩, rfl⟩
  | some k =>
    obtain ⟨u, hend, heff⟩ := exec_uop_cases hk h
    obtain ⟨hkept, hcmd⟩ := hend.kept
    exact ⟨heff.recorded.trans_kept hkept, hcmd.trans heff.cmd⟩

/-! ## SEQ's step -/

/-- What SEQ fetches: a micro-word put in place, the command on the port in `IDLE`, or the micro-op it
issues (R150, R170). -/
theorem fetch_run_cases {s v : State} {i : Instr} (h : fetch s = .run i v) :
    (∃ w, s.uw = some w ∧ decodeUop w = .ok i ∧ v = s.setUw none) ∨
    (∃ w, s.uw = none ∧ s.ph = .idle ∧ s.cmd = some w ∧ decodeCmd w = .ok i ∧
      v = s.setCmd none) ∨
    (s.uw = none ∧ s.ph ≠ .idle ∧ issue s = .ok i ∧ v = s) := by
  unfold fetch runDecoded at h
  split at h
  next w hu =>
    split at h
    next j hd => cases h; exact .inl ⟨w, hu, hd, rfl⟩
    next => cases h
  next hu =>
    split at h
    next hp =>
      split at h
      next => cases h
      next w hc =>
        split at h
        next j hd => cases h; exact .inr (.inl ⟨w, hu, hp, hc, hd, rfl⟩)
        next => cases h
    next hp =>
      split at h
      next j hi => cases h; exact .inr (.inr ⟨hu, hp, hi, rfl⟩)
      next => cases h

/-- If SEQ answers a next state, it had nothing to do or ran what it fetched. -/
theorem seqStep_cases {s t : State} (h : seqStep s = .next t) :
    (nextInstr s = none ∧ t = s) ∨ (∃ i v, fetch s = .run i v ∧ exec i v = .next t) := by
  unfold seqStep at h
  split at h
  next hf => cases h; exact .inl ⟨by simp [nextInstr, hf], rfl⟩
  next i v hf => exact .inr ⟨i, v, hf, h⟩
  next => cases h

theorem nextInstr_of_fetch {s v : State} {i : Instr} (h : fetch s = .run i v) :
    nextInstr s = some i := by
  simp [nextInstr, h]

theorem fetch_of_nextInstr {s : State} {i : Instr} (h : nextInstr s = some i) :
    ∃ v, fetch s = .run i v := by
  unfold nextInstr at h
  split at h
  next j v hf => cases h; exact ⟨v, hf⟩
  next => cases h
  next => cases h

/-- What SEQ fetches does not depend on the moves to come. -/
@[simp] theorem nextInstr_setSchedule (s : State) (ms : List Move) :
    nextInstr (s.setSchedule ms) = nextInstr s := by
  have hissue : issue (s.setSchedule ms) = issue s := rfl
  unfold nextInstr fetch runDecoded
  simp only [State.setSchedule_uw, State.setSchedule_ph, State.setSchedule_cmd, hissue]
  cases s.uw with
  | some w => cases hd : decodeUop w <;> simp [hd]
  | none =>
    by_cases hp : s.ph = .idle
    · cases s.cmd with
      | none => simp [hp]
      | some w => cases hd : decodeCmd w <;> simp [hp, hd]
    · cases hi : issue s <;> simp [hp]

/-- The instruction SEQ issues is of the kind its pair selects (R150). -/
theorem kindOf_issue {s : State} {i : Instr} (h : issue s = .ok i) :
    ∃ k, kindOf i = some k ∧ selected s.ph s.us = some k := by
  cases hsel : selected s.ph s.us with
  | none => simp only [issue, hsel, reduceCtorEq] at h
  | some k =>
    refine ⟨k, ?_, rfl⟩
    cases k with
    | wbyte | check =>
      simp only [issue, hsel] at h
      split at h <;> cases h
      rfl
    | _ =>
      simp only [issue, hsel] at h
      cases h
      rfl

/-! ## Every agent's step -/

/-- What a move of CTL or HOST does: it touches the controller's registers, its hidden state and the
command port, and takes no command off the port (R16, R73, R74, R224). -/
structure OutsideMove (s t : State) : Prop where
  frame : t = { s with
    ctrl := t.ctrl, sr := t.sr, dr := t.dr, inflight := t.inflight, stopBusy := t.stopBusy
    busOwned := t.busOwned, slave := t.slave, draws := t.draws, cmd := t.cmd
    schedule := t.schedule }
  port : ∀ w, s.cmd = some w → t.cmd = some w

theorem OutsideMove.ph {s t : State} (h : OutsideMove s t) : t.ph = s.ph := by
  rw [h.frame]

theorem OutsideMove.setSchedule (s : State) (ms : List Move) : OutsideMove s (s.setSchedule ms) :=
  ⟨rfl, fun _ => id⟩

theorem outsideMove_eComplete (st : Status) (d : Byte) (s : State) (ms : List Move) :
    OutsideMove s (eComplete st d (s.setSchedule ms)) := by
  unfold eComplete
  split
  · split
    · rw [completeWith_eq]
      exact ⟨rfl, fun _ => id⟩
    · exact .setSchedule s ms
  · exact .setSchedule s ms

theorem outsideMove_eStopDone (s : State) (ms : List Move) :
    OutsideMove s (eStopDone (s.setSchedule ms)) := by
  cases h : s.stopBusy with
  | true =>
    rw [eStopDone_eq (s := s.setSchedule ms) h]
    exact ⟨rfl, fun _ => id⟩
  | false =>
    rw [eStopDone_disabled (s := s.setSchedule ms) h]
    exact .setSchedule s ms

theorem outsideMove_offer (w : CmdWord) (s : State) (ms : List Move) :
    OutsideMove s (offer w (s.setSchedule ms)) := by
  cases h : s.cmd with
  | none =>
    rw [offer_free (s := s.setSchedule ms) h]
    exact ⟨rfl, fun v hv => by rw [h] at hv; cases hv⟩
  | some v =>
    rw [offer_taken (s := s.setSchedule ms) h]
    exact .setSchedule s ms

/-- A step other than reset is SEQ's or a move of CTL or HOST (R8). -/
theorem step_cases {s t : State} (h : step s = .next t) (hr : s.schedule.head? ≠ some .reset) :
    (seqMovesNext s = true ∧ ∃ ms, seqStep (s.setSchedule ms) = .next t) ∨
      (seqMovesNext s = false ∧ OutsideMove s t) := by
  cases hm : s.schedule with
  | nil =>
    rw [step_nil hm] at h
    have hs : s.setSchedule [] = s := by rw [← hm]; rfl
    exact .inl ⟨by simp [seqMovesNext, hm], [], by rwa [hs]⟩
  | cons m ms =>
    rw [step_cons hm] at h
    cases m with
    | seq => exact .inl ⟨by simp [seqMovesNext, hm], ms, h⟩
    | complete st d =>
      cases h
      exact .inr ⟨by simp [seqMovesNext, hm], outsideMove_eComplete st d s ms⟩
    | stopDone =>
      cases h
      exact .inr ⟨by simp [seqMovesNext, hm], outsideMove_eStopDone s ms⟩
    | offer w =>
      cases h
      exact .inr ⟨by simp [seqMovesNext, hm], outsideMove_offer w s ms⟩
    | reset => exact absurd (by simp [hm]) hr

/-- The reset event takes up its move (R230). -/
theorem step_reset {s : State} {ms : List Move} (h : s.schedule = .reset :: ms) :
    step s = .next (resetEvent (s.setSchedule ms)) :=
  step_cons h

/-- What a step other than reset makes of the three registers: SEQ ran an instruction, or they are
kept. -/
theorem step_recorded {s t : State} (h : step s = .next t) (hr : s.schedule.head? ≠ some .reset) :
    (seqMovesNext s = true ∧ ∃ i, nextInstr s = some i ∧ Recorded i s t) ∨
      ((seqMovesNext s = false ∨ nextInstr s = none) ∧ Kept s t) := by
  obtain ⟨hseq, ms, hstep⟩ | ⟨hseq, hout⟩ := step_cases h hr
  · obtain ⟨hnone, rfl⟩ | ⟨i, v, hf, hexec⟩ := seqStep_cases hstep
    · exact .inr ⟨.inr ((nextInstr_setSchedule s ms).symm.trans hnone), rfl, rfl, rfl⟩
    · have hi : nextInstr s = some i :=
        (nextInstr_setSchedule s ms).symm.trans (nextInstr_of_fetch hf)
      refine .inl ⟨hseq, i, hi, ?_⟩
      have hrec : Recorded i v t := (exec_recorded hexec).1
      obtain ⟨w, -, -, rfl⟩ | ⟨w, -, -, -, -, rfl⟩ | ⟨-, -, -, rfl⟩ := fetch_run_cases hf
      · exact .of_ports (s := s) hrec
      · exact .of_ports (s := s) hrec
      · exact .of_ports (s := s) hrec
  · rw [hout.frame]
    exact .inr ⟨.inl hseq, rfl, rfl, rfl⟩

/-- While `BUSY` SEQ's step is the micro-op it issues (R150). -/
theorem seqStep_busy_cases {s t : State} (hu : s.uw = none) (hp : s.ph ≠ .idle)
    (h : seqStep s = .next t) :
    ∃ i k, kindOf i = some k ∧ selected s.ph s.us = some k ∧ exec i s = .next t := by
  cases hi : issue s with
  | error r => simp [seqStep, fetch, hu, hp, hi] at h
  | ok i =>
    obtain ⟨k, hk, hsel⟩ := kindOf_issue hi
    exact ⟨i, k, hk, hsel, by rwa [seqStep_busy hu hp hi] at h⟩

/-- In a state with the invariant SEQ runs `U_RBYTE` in `RX` alone (R142, R154). -/
theorem ph_eq_rx_of_nextInstr_rbyte {s : State} (hs : SeqInv s)
    (h : nextInstr s = some .uRbyte) : s.ph = .rx := by
  obtain ⟨huw, -⟩ := hs
  obtain ⟨v, hf⟩ := fetch_of_nextInstr h
  obtain ⟨w, hu, -⟩ | ⟨w, -, -, -, hd, -⟩ | ⟨-, -, hi, -⟩ := fetch_run_cases hf
  · rw [huw] at hu
    cases hu
  · cases kindOf_of_decodeCmd hd
  · obtain ⟨k, hk, hsel⟩ := kindOf_issue hi
    cases hk
    exact eq_rx_of_selected_rbyte hsel

/-! ## The response -/

/-- R177 never leads to `IDLE`. -/
theorem nextPhase_ne_idle (o : Op) (p : Phase) : nextPhase o p ≠ some .idle := by
  cases p <;> cases o <;> decide

/-- From a phase, sequencing enters `IDLE` only with a response: that of `INIT`, or that of the stop
step (R150, R155). -/
theorem sequel_to_idle {k : UopKind} {u t : State} (h : sequel k u = some t) (hu : u.ph ≠ .idle)
    (ht : t.ph = .idle) :
    (k = .init ∧ t = respond .ok 0#8 u) ∨
      (k = .go ∧ t = respond .ok u.okCount u) := by
  cases k with
  | init => cases h; exact .inl ⟨rfl, rfl⟩
  | start | stop | wbyte | ack | wait | status | clrStart => cases h; exact absurd ht hu
  | go =>
    simp only [sequel, Option.some.injEq] at h
    split at h
    · exact .inr ⟨rfl, h.symm⟩
    · subst h; exact absurd ht hu
  | rbyte =>
    simp only [sequel, Option.some.injEq] at h
    subst h
    split at ht <;> cases ht
  | check =>
    simp only [sequel] at h
    split at h
    · cases h; cases ht
    · obtain ⟨p, hp, rfl⟩ := Option.map_eq_some_iff.mp h
      cases ht
      exact absurd hp (nextPhase_ne_idle _ _)

/-- A response is shown; it has `n` bytes if it is `Ok` and none otherwise (R31, R33, R180). -/
def Answered (n : Byte) (t : State) : Prop :=
  t.resultValid = true ∧ (t.result ≠ .ok → t.count = 0#8) ∧ (t.result = .ok → t.count = n)

theorem answered_respond_ok (n : Byte) (u : State) : Answered n (respond .ok n u) :=
  ⟨rfl, fun h => absurd rfl h, fun _ => rfl⟩

theorem answered_raiseError {r : Result} (hr : r.isBusError = true) (n : Byte) (u : State) :
    Answered n (raiseError r u) := by
  refine ⟨rfl, fun _ => rfl, fun hok => ?_⟩
  have : r = .ok := hok
  subst this
  cases hr

/-- `U_INIT` is selected in phase `INIT` alone (R150). -/
theorem eq_init_of_selected_init {p : Phase} {u : MicroStep} (h : selected p u = some .init) :
    p = .init := by
  revert h
  cases p <;> cases u <;> decide

/-- In phase `INIT` the command under way is `INIT`, whose response has no bytes (R171). -/
theorem okCount_of_init {s : State} (hp : s.ph = .init) (hop : opFitsPhase s.op s.ph = true) :
    s.okCount = 0#8 := by
  have ho : s.op = .init := by simpa [hp, opFitsPhase] using hop
  simp [State.okCount, ho]

/-- A micro-op that takes SEQ from `BUSY` to `IDLE` gives a response (R31, R180, R224). -/
theorem exec_uop_to_idle {i : Instr} {k : UopKind} {s t : State} (hk : kindOf i = some k)
    (hsel : selected s.ph s.us = some k) (hop : opFitsPhase s.op s.ph = true)
    (hp : s.ph ≠ .idle) (h : exec i s = .next t) (ht : t.ph = .idle) : Answered s.okCount t := by
  obtain ⟨u, hend, heff⟩ := exec_uop_cases hk h
  have hu : u.ph ≠ .idle := heff.ph ▸ hp
  cases hend with
  | stays h => exact absurd (h ▸ ht) hu
  | aborts r hr h => exact h ▸ answered_raiseError hr s.okCount u
  | goesOn h =>
    obtain ⟨rfl, rfl⟩ | ⟨-, rfl⟩ := sequel_to_idle h hu ht
    · rw [okCount_of_init (eq_init_of_selected_init hsel) hop]
      exact answered_respond_ok 0#8 u
    · rw [← heff.okCount]
      exact answered_respond_ok u.okCount u

end Sys2Proof.Machine

open Sys2Proof Sys2Proof.Machine

/-- Settles O40: only `U_RBYTE` writes the buffer, through the canonical write and below 255; reset
empties it. -/
theorem everyStepKeepsBufferCanonical : Obligations.EveryStepKeepsBufferCanonical := by
  intro s t hs h
  by_cases hr : s.schedule.head? = some .reset
  · obtain ⟨ms, hm⟩ := List.head?_eq_some_iff.mp hr
    rw [step_reset hm] at h
    cases h
    rfl
  · obtain ⟨-, i, -, hrec⟩ | ⟨-, -, hbuf, -⟩ := step_recorded h hr
    · exact hrec.bufferOk hs
    · rw [bufferOk_iff] at hs ⊢
      rwa [hbuf]

/-- Settles O41: `U_GO` is the one writer of `TRACE`. -/
theorem traceGrowsOnlyByGo : Obligations.TraceGrowsOnlyByGo := by
  intro s t h hr
  obtain ⟨hseq, i, hi, hrec⟩ | ⟨hno, -, -, htrace⟩ := step_recorded h hr
  · constructor
    · rintro ⟨-, hgo⟩
      cases hi.symm.trans hgo
      exact hrec.trace_of_go
    · intro hgo
      exact hrec.trace_of_ne_go fun hi' => hgo ⟨hseq, hi' ▸ hi⟩
  · refine ⟨fun ⟨hseq, hgo⟩ => ?_, fun _ => htrace⟩
    obtain hno | hno := hno
    · cases hno.symm.trans hseq
    · cases hno.symm.trans hgo

/-- Settles O42: `U_INIT` is the one writer of `INITIALIZED`, and it sets it. -/
theorem initializedChangesOnlyByInitOrReset :
    Obligations.InitializedChangesOnlyByInitOrReset := by
  intro s t h hr
  obtain ⟨hseq, i, hi, hrec⟩ | ⟨-, hkept, -⟩ := step_recorded h hr
  · obtain hkept | ⟨hset, d, rfl⟩ := hrec.initialized_cases
    · exact ⟨hkept.trans, fun h0 h1 => absurd (hkept.symm.trans h1) (by simp [h0])⟩
    · exact ⟨fun _ => hset, fun _ _ => ⟨hseq, d, hi⟩⟩
  · exact ⟨hkept.trans, fun h0 h1 => absurd (hkept.symm.trans h1) (by simp [h0])⟩

/-- Settles O43: `U_RBYTE` is the one writer of `BUF`, and its write leaves the other bytes alone. -/
theorem bufferWrittenOnlyByReadByte : Obligations.BufferWrittenOnlyByReadByte := by
  intro s t j h hr hne
  obtain ⟨hseq, i, hi, hrec⟩ | ⟨-, -, hbuf, -⟩ := step_recorded h hr
  · obtain hbuf | ⟨rfl, -, v, hbuf⟩ := hrec.buf_cases
    · exact absurd (by rw [hbuf]) hne
    · have hj : j = s.idx.toNat :=
        not_not.mp fun hj => hne (by rw [hbuf, Memory.read_write_other hj])
      exact ⟨hseq, hi, hj, fun hs => ph_eq_rx_of_nextInstr_rbyte hs hi⟩
  · exact absurd (by rw [hbuf]) hne

/-- Settles O44: only SEQ leaves `BUSY`, and the micro-op with which it does gives the response. -/
theorem busyEndsOnlyWithResponse : Obligations.BusyEndsOnlyWithResponse := by
  intro s t hs hbusy h hidle hr
  obtain ⟨huw, -, -, -, hop, -⟩ := hs
  have hp : s.ph ≠ .idle := by simpa [State.busy] using hbusy
  have ht : t.ph = .idle := State.busy_eq_false_iff.mp hidle
  obtain ⟨-, ms, hstep⟩ | ⟨-, hout⟩ := step_cases h hr
  · obtain ⟨i, k, hk, hsel, hexec⟩ := seqStep_busy_cases (s := s.setSchedule ms) huw hp hstep
    exact exec_uop_to_idle (s := s.setSchedule ms) hk hsel hop hp hexec ht
  · exact absurd (hout.ph.symm.trans ht) hp

/-- Settles O17: a micro-op leaves the port alone, CTL, HOST and reset take no command off it, and the
acceptance of a command waits. -/
theorem commandsWaitWhileBusy : Obligations.CommandsWaitWhileBusy := by
  intro s t huw hp h
  have hbusy : s.busy = true := by simpa [State.busy] using hp
  have hwait {i : Instr} (hi : kindOf i = none) : exec i s = .next s := exec_command_busy hbusy hi
  refine ⟨fun w hw => ?_, fun d => hwait rfl, fun a r x => ⟨hwait rfl, hwait rfl, hwait rfl⟩,
    hwait rfl⟩
  by_cases hr : s.schedule.head? = some .reset
  · obtain ⟨ms, hm⟩ := List.head?_eq_some_iff.mp hr
    rw [step_reset hm] at h
    cases h
    exact hw
  · obtain ⟨-, ms, hstep⟩ | ⟨-, hout⟩ := step_cases h hr
    · obtain ⟨i, k, -, -, hexec⟩ := seqStep_busy_cases (s := s.setSchedule ms) huw hp hstep
      exact (exec_recorded hexec).2.trans hw
    · exact hout.port w hw

/-- Settles O29: index 255 is outside the bound of `BUF`. -/
theorem readByteFaultsOutsideBuffer : Obligations.ReadByteFaultsOutsideBuffer := by
  intro s hi
  have hout : ¬ s.idx.toNat < Config.maxBurst := by simp [hi, Config.maxBurst]
  rw [exec, execURbyte, if_neg hout]

/-- Settles O35: the reset event takes the registers from the reset state. -/
theorem resetFromAnyState : Obligations.ResetFromAnyState := by
  intro s ms h
  exact ⟨_, step_reset h, rfl, rfl, rfl, rfl, rfl, rfl, rfl, rfl, rfl, rfl, rfl⟩

/-- Settles O37: each clause of the invariant, evaluated at the reset state. -/
theorem resetStateIsSafe : Obligations.ResetStateIsSafe :=
  ⟨rfl, rfl, rfl, rfl, rfl, rfl, rfl, rfl, rfl, rfl, rfl, rfl, rfl, rfl, rfl, rfl⟩

end

section
/-! PROOFS. SEQ's step by value: what it does at each row of R150, said once.  The invariant, the
bound on a live bus and the runs under a schedule are all derived from these rows. -/

namespace Sys2Proof.Machine

/-! ## What a micro-op leaves before sequencing -/

/-- `CTRL.F <- b` (R64). -/
def State.setField (f : CtrlField) (b : Bool) (s : State) : State :=
  s.setCtrl (storeCtrl s.ctrl (fieldWriteByte f b s.ctrl))

/-- `clear_and_proceed` of a primitive of the kind `k` (R72, R125). -/
def State.proceed (k : PrimKind) (s : State) : State :=
  launch k (s.setCtrl (storeCtrl s.ctrl (goByte (s.ctrl &&& ctrlUsedMask))))

/-- What `INIT` leaves of the controller (R121). -/
def State.configured (s : State) : State :=
  ((s.setBr s.divr).setCtrl (storeCtrl s.ctrl initByte)).setInitialized true

/-- `DR` goes to `BUF[IDX]` (R142). -/
def State.storeByte (s : State) : State := s.setBuf (s.buf.write s.idx.toNat s.dr)

/-- SEQ enters the phase `q` after a check that passed; leaving `SLAR`, `IDX` becomes 0 (R177). -/
def State.enterPhase (q : Phase) (s : State) : State :=
  (s.setIdx (if s.ph = .slar then 0#8 else s.idx)).setPc q .cfg

/-- After a received byte: the next byte, or the stop (R150, R154). -/
def State.nextByte (s : State) : State :=
  if s.isLast then s.setPc .stop .cfg else (s.setIdx (s.idx + 1#8)).setPc .rx .cfg

/-- The micro-step after `STAT` (R150). -/
def Phase.afterStatus (p : Phase) : MicroStep := if p.isStart then .clr else .chk

@[simp] theorem State.proceed_ph (k : PrimKind) (s : State) : (s.proceed k).ph = s.ph := by
  cases k <;> rfl

@[simp] theorem State.proceed_us (k : PrimKind) (s : State) : (s.proceed k).us = s.us := by
  cases k <;> rfl

theorem State.proceed_okCount (k : PrimKind) (s : State) : (s.proceed k).okCount = s.okCount := by
  cases k <;> rfl

/-! ## Where each micro-op is selected (R150) -/

/-- A phase whose primitive SEQ waits for (R158). -/
def Phase.awaited (p : Phase) : Prop := p ≠ .idle ∧ p ≠ .init ∧ p ≠ .stop

theorem selected_init {p : Phase} {u : MicroStep} :
    selected p u = some .init ↔ p = .init ∧ u = .cfg := by
  cases p <;> cases u <;> decide

theorem selected_start {p : Phase} {u : MicroStep} :
    selected p u = some .start ↔ p.isStart = true ∧ u = .cfg := by
  cases p <;> cases u <;> decide

theorem selected_clrStart {p : Phase} {u : MicroStep} :
    selected p u = some .clrStart ↔ p.isStart = true ∧ u = .clr := by
  cases p <;> cases u <;> decide

theorem selected_stop {p : Phase} {u : MicroStep} :
    selected p u = some .stop ↔ p = .stop ∧ u = .cfg := by
  cases p <;> cases u <;> decide

theorem selected_wbyte {p : Phase} {u : MicroStep} :
    selected p u = some .wbyte ↔ p.kind = some .tx ∧ u = .cfg := by
  cases p <;> cases u <;> decide

theorem selected_ack {p : Phase} {u : MicroStep} :
    selected p u = some .ack ↔ p = .rx ∧ u = .cfg := by
  cases p <;> cases u <;> decide

theorem selected_go {p : Phase} {u : MicroStep} :
    selected p u = some .go ↔ (p ≠ .idle ∧ p ≠ .init) ∧ u = .go := by
  cases p <;> cases u <;> decide

theorem selected_wait {p : Phase} {u : MicroStep} :
    selected p u = some .wait ↔ p.awaited ∧ u = .wait := by
  unfold Phase.awaited
  cases p <;> cases u <;> decide

theorem selected_status {p : Phase} {u : MicroStep} :
    selected p u = some .status ↔ p.awaited ∧ u = .stat := by
  unfold Phase.awaited
  cases p <;> cases u <;> decide

theorem selected_check {p : Phase} {u : MicroStep} :
    selected p u = some .check ↔ p.awaited ∧ u = .chk := by
  unfold Phase.awaited
  cases p <;> cases u <;> decide

theorem selected_rbyte {p : Phase} {u : MicroStep} :
    selected p u = some .rbyte ↔ p = .rx ∧ u = .data := by
  cases p <;> cases u <;> decide

theorem ne_idle_of_selected {p : Phase} {u : MicroStep} {k : UopKind} (h : selected p u = some k) :
    p ≠ .idle := by
  rintro rfl
  cases h

/-- `U_GO` launches a stop in phase `STOP` alone (R126). -/
theorem eq_stop_of_kind_stop {p : Phase} (h : p.kind = some .stop) : p = .stop := by
  revert h
  cases p <;> decide

/-! ## The rows -/

/-- While no micro-word is put in its place, SEQ runs the micro-op it issues (R150). -/
theorem seqStep_selected {s : State} {k : UopKind} {i : Instr} (hu : s.uw = none)
    (hk : selected s.ph s.us = some k) (hi : issue s = .ok i) : seqStep s = exec i s :=
  seqStep_busy hu (ne_idle_of_selected hk) hi

section Rows

variable {s : State} (hu : s.uw = none)
include hu

/-- `INIT`, `CFG`. -/
theorem seqStep_init (h : selected s.ph s.us = some .init) :
    seqStep s = .next (respond .ok 0#8 s.configured) := by
  rw [seqStep_selected hu h (i := .uInit s.divr) (by simp [issue, h]), exec, execUInit_eq]
  exact advance_selected h rfl

/-- A start phase, `CFG`. -/
theorem seqStep_start (h : selected s.ph s.us = some .start) :
    seqStep s = .next ((s.setField .start true).setPc s.ph .go) := by
  rw [seqStep_selected hu h (i := .uStart) (by simp [issue, h]), exec, execUStart_eq]
  exact advance_selected h rfl

/-- A start phase, `CLR`. -/
theorem seqStep_clrStart (h : selected s.ph s.us = some .clrStart) :
    seqStep s = .next ((s.setField .start false).setPc s.ph .chk) := by
  rw [seqStep_selected hu h (i := .uClrStart) (by simp [issue, h]), exec, execUClrStart_eq]
  exact advance_selected h rfl

/-- `STOP`, `CFG`. -/
theorem seqStep_stop (h : selected s.ph s.us = some .stop) :
    seqStep s = .next ((s.setField .stop true).setPc s.ph .go) := by
  rw [seqStep_selected hu h (i := .uStop) (by simp [issue, h]), exec, execUStop_eq]
  exact advance_selected h rfl

/-- A transmit phase, `CFG`. -/
theorem seqStep_wbyte (h : selected s.ph s.us = some .wbyte) {b : Byte}
    (hb : s.phaseByte = some b) : seqStep s = .next ((s.setDr b).setPc s.ph .go) := by
  rw [seqStep_selected hu h (i := .uWbyte b) (by simp [issue, h, hb]), exec, execUWbyte_eq]
  exact advance_selected h rfl

/-- `RX`, `CFG`. -/
theorem seqStep_ack (h : selected s.ph s.us = some .ack) :
    seqStep s = .next ((s.setField .ack s.ackLevel).setPc s.ph .go) := by
  rw [seqStep_selected hu h (i := .uAck s.ackLevel) (by simp [issue, h]), exec, execUAck_eq]
  exact advance_selected h rfl

/-- A phase SEQ waits in, `GO`. -/
theorem seqStep_go (h : selected s.ph s.us = some .go) {k : PrimKind} (hk : s.ph.kind = some k)
    (hp : s.ph ≠ .stop) : seqStep s = .next ((s.proceed k).setPc s.ph .wait) := by
  rw [seqStep_selected hu h (i := .uGo) (by simp [issue, h]), exec, execUGo_eq hk]
  exact advance_selected (s := s.proceed k) (by simpa using h) (by simp [sequel, hp])

/-- `STOP`, `GO`. -/
theorem seqStep_goStop (h : selected s.ph s.us = some .go) (hp : s.ph = .stop) :
    seqStep s = .next (respond .ok s.okCount (s.proceed .stop)) := by
  have hk : s.ph.kind = some .stop := by rw [hp]; rfl
  rw [seqStep_selected hu h (i := .uGo) (by simp [issue, h]), exec, execUGo_eq hk]
  exact advance_selected (s := s.proceed .stop) h
    (by simp [sequel, hp, State.proceed_okCount])

/-- `WAIT` while the flag is 0. -/
theorem seqStep_held (h : selected s.ph s.us = some .wait) (hi : ctrlInt s.ctrl = false) :
    seqStep s = .next s := by
  rw [seqStep_selected hu h (i := .uWait) (by simp [issue, h]), exec, execUWait_eq, hi]
  rfl

/-- `WAIT` once the flag is 1. -/
theorem seqStep_wait (h : selected s.ph s.us = some .wait) (hi : ctrlInt s.ctrl = true) :
    seqStep s = .next (s.setPc s.ph .stat) := by
  rw [seqStep_selected hu h (i := .uWait) (by simp [issue, h]), exec, execUWait_eq, hi]
  exact advance_selected h rfl

/-- `STAT`, inside the window. -/
theorem seqStep_status (h : selected s.ph s.us = some .status) (hw : ctrlInt s.ctrl = true) :
    seqStep s = .next ((s.setStLatch (statusOf s.sr)).setPc s.ph s.ph.afterStatus) := by
  rw [seqStep_selected hu h (i := .uStatus) (by simp [issue, h]), exec, execUStatus_open hw]
  exact advance_selected h rfl

/-- `DATA`, inside the window and the buffer. -/
theorem seqStep_rbyte (h : selected s.ph s.us = some .rbyte) (hw : ctrlInt s.ctrl = true)
    (hi : s.idx.toNat < Config.maxBurst) : seqStep s = .next s.storeByte.nextByte := by
  rw [seqStep_selected hu h (i := .uRbyte) (by simp [issue, h]), exec, execURbyte_open hi hw]
  exact advance_selected h rfl

/-- `CHK`, the expected status: on to the next phase. -/
theorem seqStep_check_pass (h : selected s.ph s.us = some .check) {r : Result}
    (he : s.expected = some s.stLatch) (hr : s.errorKind = some r) {q : Phase}
    (hq : nextPhase s.op s.ph = some q) : seqStep s = .next (s.enterPhase q) := by
  have hrx : s.ph ≠ .rx := by intro hp; rw [hp] at hq; cases hq
  rw [seqStep_selected hu h (i := .uCheck r.code s.stLatch) (by simp [issue, h, he, hr]), exec,
    execUCheck_pass rfl]
  refine advance_selected h ?_
  simp only [sequel, if_neg hrx, hq, Option.map_some, State.enterPhase]
  split <;> rfl

/-- `RX`, `CHK`, the expected status: on to the byte. -/
theorem seqStep_check_byte (h : selected s.ph s.us = some .check) {r : Result}
    (he : s.expected = some s.stLatch) (hr : s.errorKind = some r) (hp : s.ph = .rx) :
    seqStep s = .next (s.setPc s.ph .data) := by
  rw [seqStep_selected hu h (i := .uCheck r.code s.stLatch) (by simp [issue, h, he, hr]), exec,
    execUCheck_pass rfl]
  exact advance_selected h (by simp [sequel, hp])

/-- `CHK`, any other status: the abort. -/
theorem seqStep_check_abort (h : selected s.ph s.us = some .check) {e : Status} {r : Result}
    (he : s.expected = some e) (hr : s.errorKind = some r) (hbus : r.isBusError = true)
    (hne : s.stLatch ≠ e) : seqStep s = .next (raiseError r s) := by
  rw [seqStep_selected hu h (i := .uCheck r.code e) (by simp [issue, h, he, hr]), exec]
  exact execUCheck_abort hne (ofErrCode_code hbus)

end Rows

end Sys2Proof.Machine
end

section
/-! PROOFS. The invariant of SEQ and CTL is kept by every step of SEQ in a phase
(spec/42_protocol_steps.md R150 to R159, spec/20_memory.md R79). -/

namespace Sys2Proof.Machine

/-! ## The rows as one relation -/

/-- What SEQ's step from `s` in a phase can answer: a row of R150 with its outcome. -/
inductive SeqRow (s : State) : State → Prop where
  | init (hp : s.ph = .init) (hu : s.us = .cfg) : SeqRow s (respond .ok 0#8 s.configured)
  | start (hp : s.ph.isStart = true) (hu : s.us = .cfg) :
      SeqRow s ((s.setField .start true).setPc s.ph .go)
  | stop (hp : s.ph = .stop) (hu : s.us = .cfg) : SeqRow s ((s.setField .stop true).setPc s.ph .go)
  | wbyte (b : Byte) (hb : s.phaseByte = some b) (hp : s.ph.kind = some .tx) (hu : s.us = .cfg) :
      SeqRow s ((s.setDr b).setPc s.ph .go)
  | ack (hp : s.ph = .rx) (hu : s.us = .cfg) :
      SeqRow s ((s.setField .ack s.ackLevel).setPc s.ph .go)
  | go (k : PrimKind) (hk : s.ph.kind = some k) (hp : s.ph.awaited) (hu : s.us = .go) :
      SeqRow s ((s.proceed k).setPc s.ph .wait)
  | goStop (hp : s.ph = .stop) (hu : s.us = .go) :
      SeqRow s (respond .ok s.okCount (s.proceed .stop))
  | held (hu : s.us = .wait) (hi : ctrlInt s.ctrl = false) : SeqRow s s
  | wait (hp : s.ph.awaited) (hu : s.us = .wait) (hi : ctrlInt s.ctrl = true) :
      SeqRow s (s.setPc s.ph .stat)
  | status (hp : s.ph.awaited) (hu : s.us = .stat) :
      SeqRow s ((s.setStLatch (statusOf s.sr)).setPc s.ph s.ph.afterStatus)
  | clrStart (hp : s.ph.isStart = true) (hu : s.us = .clr) :
      SeqRow s ((s.setField .start false).setPc s.ph .chk)
  | pass (q : Phase) (hq : nextPhase s.op s.ph = some q) (hp : s.ph.awaited) (hu : s.us = .chk) :
      SeqRow s (s.enterPhase q)
  | byte (hp : s.ph = .rx) (hu : s.us = .chk) : SeqRow s (s.setPc s.ph .data)
  | abort (r : Result) (hr : r.isBusError = true) (hp : s.ph.awaited) (hu : s.us = .chk) :
      SeqRow s (raiseError r s)
  | rbyte (hp : s.ph = .rx) (hu : s.us = .data) : SeqRow s s.storeByte.nextByte

theorem awaited_of_isStart {p : Phase} (h : p.isStart = true) : p.awaited := by
  unfold Phase.awaited
  revert h
  cases p <;> decide

/-- The window is open from `STAT` on (R140, R239). -/
theorem ctrlInt_of_windowOk {s : State} (h : windowOk s = true)
    (hu : s.us = .stat ∨ s.us = .data) : ctrlInt s.ctrl = true := by
  obtain hu | hu := hu <;> simpa [windowOk, hu, State.windowOpen] using h

/-- In a state with the invariant SEQ's step in a phase is a row of R150. -/
theorem seqStep_row {s : State} (hs : SeqInv s) (hbusy : s.ph ≠ .idle) :
    ∃ t, seqStep s = .next t ∧ SeqRow s t := by
  obtain ⟨huw, -, -, hpc, hop, -, hidx, -, -, -, -, -, hwin, -⟩ := hs
  obtain ⟨k, hk⟩ := exists_selected hpc hbusy
  cases k with
  | init => exact ⟨_, seqStep_init huw hk, .init (selected_init.mp hk).1 (selected_init.mp hk).2⟩
  | start =>
    exact ⟨_, seqStep_start huw hk, .start (selected_start.mp hk).1 (selected_start.mp hk).2⟩
  | clrStart =>
    exact ⟨_, seqStep_clrStart huw hk,
      .clrStart (selected_clrStart.mp hk).1 (selected_clrStart.mp hk).2⟩
  | stop => exact ⟨_, seqStep_stop huw hk, .stop (selected_stop.mp hk).1 (selected_stop.mp hk).2⟩
  | ack => exact ⟨_, seqStep_ack huw hk, .ack (selected_ack.mp hk).1 (selected_ack.mp hk).2⟩
  | wbyte =>
    obtain ⟨hp, hu⟩ := selected_wbyte.mp hk
    obtain ⟨b, hb⟩ := exists_phaseByte_of_kind_tx hp
    exact ⟨_, seqStep_wbyte huw hk hb, .wbyte b hb hp hu⟩
  | go =>
    obtain ⟨⟨hidle, hinit⟩, hu⟩ := selected_go.mp hk
    by_cases hstop : s.ph = .stop
    · exact ⟨_, seqStep_goStop huw hk hstop, .goStop hstop hu⟩
    · obtain ⟨p, hp⟩ := exists_kind_of_selected_go hk
      exact ⟨_, seqStep_go huw hk hp hstop, .go p hp ⟨hidle, hinit, hstop⟩ hu⟩
  | wait =>
    obtain ⟨hp, hu⟩ := selected_wait.mp hk
    cases hi : ctrlInt s.ctrl with
    | false => exact ⟨_, seqStep_held huw hk hi, .held hu hi⟩
    | true => exact ⟨_, seqStep_wait huw hk hi, .wait hp hu hi⟩
  | status =>
    obtain ⟨hp, hu⟩ := selected_status.mp hk
    exact ⟨_, seqStep_status huw hk (ctrlInt_of_windowOk hwin (.inl hu)), .status hp hu⟩
  | rbyte =>
    obtain ⟨hp, hu⟩ := selected_rbyte.mp hk
    exact ⟨_, seqStep_rbyte huw hk (ctrlInt_of_windowOk hwin (.inr hu)) (idx_lt_maxBurst hidx hp),
      .rbyte hp hu⟩
  | check =>
    obtain ⟨hp, hu⟩ := selected_check.mp hk
    obtain ⟨e, he⟩ := exists_expected hp
    obtain ⟨r, hr, hbus⟩ := exists_errorKind hp hop
    by_cases hst : s.stLatch = e
    · subst hst
      by_cases hrx : s.ph = .rx
      · exact ⟨_, seqStep_check_byte huw hk he hr hrx, .byte hrx hu⟩
      · obtain ⟨q, hq⟩ := exists_nextPhase hp hrx hop
        exact ⟨_, seqStep_check_pass huw hk he hr hq, .pass q hq hp hu⟩
    · exact ⟨_, seqStep_check_abort huw hk he hr hbus hst, .abort r hbus hp hu⟩

/-! ## The invariant by named facts -/

/-- The micro-steps at which a start phase holds its request (R126). -/
def MicroStep.requests : MicroStep → Bool
  | .go | .wait | .stat | .clr => true
  | .cfg | .chk | .data => false

/-- The micro-steps of the window (R140, R239). -/
def MicroStep.inWindow : MicroStep → Bool
  | .stat | .clr | .chk | .data => true
  | .cfg | .go | .wait => false

/-- The invariant without its clause on the buffer, each clause as a fact about the state. -/
structure SeqFacts (s : State) : Prop where
  uw : s.uw = none
  reserved : s.ctrl &&& ~~~ctrlUsedMask = 0#8
  pc : pcOk s = true
  op : opFitsPhase s.op s.ph = true
  len : s.ph ≠ .idle → (s.op = .readBurst → s.len ≠ 0#8) ∧ (s.op = .readReg → s.len = 1#8)
  idx : s.ph = .rx → s.idx.toNat < s.len.toNat
  start : ctrlField .start s.ctrl = (s.us.requests && s.ph.isStart)
  stop : ctrlField .stop s.ctrl = true → s.stopBusy = true ∨ (s.ph = .stop ∧ s.us = .go)
  ended : s.inflight = none → s.us = .wait → ctrlInt s.ctrl = true
  launched : ∀ p, s.inflight = some p →
    s.us = .wait ∧ ctrlInt s.ctrl = false ∧ phaseLaunches s = some p
  staged : s.us = .go → s.ph.kind = some .tx → s.phaseByte = some s.dr
  level : s.ph = .rx → s.us ≠ .cfg → ctrlField .ack s.ctrl = s.ackLevel
  window : s.us.inWindow = true → ctrlInt s.ctrl = true
  latch : s.us = .clr ∨ s.us = .chk → s.stLatch = statusOf s.sr
  gate : s.ph ≠ .idle → s.initialized = (s.ph != .init)
  fresh : s.initialized = false →
    s.trace = [] ∧ s.ctrl = 0#8 ∧ s.inflight = none ∧ s.stopBusy = false
  enable : s.initialized = true → ctrlField .enable s.ctrl = true
  hidden : s.ph ≠ .idle → s.resultValid = false
  count : s.ph = .idle → s.resultValid = true →
    s.count = if s.result = .ok then s.okCount else 0#8

theorem lenOk_iff {s : State} : lenOk s = true ↔
    (s.ph ≠ .idle → (s.op = .readBurst → s.len ≠ 0#8) ∧ (s.op = .readReg → s.len = 1#8)) := by
  simp [lenOk, imp_iff_not_or]

theorem idxOk_iff {s : State} :
    idxOk s = true ↔ (s.ph = .rx → s.idx.toNat < s.len.toNat) := by
  simp [idxOk, imp_iff_not_or]

theorem startRequestOk_iff {s : State} : startRequestOk s = true ↔
    ctrlField .start s.ctrl = (s.us.requests && s.ph.isStart) := by
  unfold startRequestOk MicroStep.requests
  cases s.us <;> simp

theorem stopRequestOk_iff {s : State} : stopRequestOk s = true ↔
    (ctrlField .stop s.ctrl = true → s.stopBusy = true ∨ (s.ph = .stop ∧ s.us = .go)) := by
  cases h : ctrlField .stop s.ctrl <;> simp [stopRequestOk, h]

theorem inflightOk_iff {s : State} : inflightOk s = true ↔
    (s.inflight = none → s.us = .wait → ctrlInt s.ctrl = true) ∧
    (∀ p, s.inflight = some p →
      s.us = .wait ∧ ctrlInt s.ctrl = false ∧ phaseLaunches s = some p) := by
  unfold inflightOk
  cases s.inflight with
  | none => simp [imp_iff_not_or]
  | some p => simp [and_assoc]

theorem stagedOk_iff {s : State} : stagedOk s = true ↔
    (s.us = .go → s.ph.kind = some .tx → s.phaseByte = some s.dr) := by
  simp [stagedOk, imp_iff_not_or, or_assoc]

theorem levelOk_iff {s : State} : levelOk s = true ↔
    (s.ph = .rx → s.us ≠ .cfg → ctrlField .ack s.ctrl = s.ackLevel) := by
  simp [levelOk, imp_iff_not_or, or_assoc]

theorem windowOk_iff {s : State} :
    windowOk s = true ↔ (s.us.inWindow = true → ctrlInt s.ctrl = true) := by
  unfold windowOk MicroStep.inWindow State.windowOpen
  cases s.us <;> simp

theorem latchOk_iff {s : State} :
    latchOk s = true ↔ (s.us = .clr ∨ s.us = .chk → s.stLatch = statusOf s.sr) := by
  unfold latchOk
  cases s.us <;> simp

theorem initOk_iff {s : State} : initOk s = true ↔
    (s.ph ≠ .idle → s.initialized = (s.ph != .init)) ∧
    (s.initialized = false →
      s.trace = [] ∧ s.ctrl = 0#8 ∧ s.inflight = none ∧ s.stopBusy = false) ∧
    (s.initialized = true → ctrlField .enable s.ctrl = true) := by
  unfold initOk
  cases s.ph <;> cases s.initialized <;> simp [and_assoc]

theorem responseOk_iff {s : State} : responseOk s = true ↔
    (s.ph ≠ .idle → s.resultValid = false) ∧
    (s.ph = .idle → s.resultValid = true →
      s.count = if s.result = .ok then s.okCount else 0#8) := by
  unfold responseOk State.busy
  by_cases hp : s.ph = .idle <;> cases s.resultValid <;> simp [hp]

theorem seqInv_iff {s : State} : SeqInv s ↔ bufferOk s = true ∧ SeqFacts s := by
  unfold SeqInv
  rw [lenOk_iff, idxOk_iff, startRequestOk_iff, stopRequestOk_iff, inflightOk_iff, stagedOk_iff,
    levelOk_iff, windowOk_iff, latchOk_iff, initOk_iff, responseOk_iff]
  constructor
  · rintro ⟨huw, hbuf, hres, hpc, hop, hlen, hidx, hstart, hstop, ⟨hended, hlaunched⟩, hstaged,
      hlevel, hwin, hlatch, ⟨hgate, hfresh, henable⟩, hhidden, hcount⟩
    exact ⟨hbuf, huw, eq_of_beq hres, hpc, hop, hlen, hidx, hstart, hstop, hended, hlaunched,
      hstaged, hlevel, hwin, hlatch, hgate, hfresh, henable, hhidden, hcount⟩
  · rintro ⟨hbuf, h⟩
    exact ⟨h.uw, hbuf, beq_iff_eq.mpr h.reserved, h.pc, h.op, h.len, h.idx, h.start, h.stop,
      ⟨h.ended, h.launched⟩, h.staged, h.level, h.window, h.latch, ⟨h.gate, h.fresh, h.enable⟩,
      h.hidden, h.count⟩

/-! ## What the writes do to the facts' fields -/

theorem ctrlField_setField (f g : CtrlField) (b : Bool) (s : State) :
    ctrlField g (s.setField f b).ctrl = if g = f then b else ctrlField g s.ctrl := by
  split
  next h => exact h ▸ ctrlField_store_fieldWrite_same f b s.ctrl
  next h => exact ctrlField_store_fieldWrite_other h b s.ctrl

@[simp] theorem ctrlInt_setField (f : CtrlField) (b : Bool) (s : State) :
    ctrlInt (s.setField f b).ctrl = ctrlInt s.ctrl :=
  ctrlInt_store_fieldWrite f b s.ctrl

/-- Clearing the flag is all that `clear_and_proceed` does to `CTRL` but for the reserved bits
(R64, R125). -/
theorem proceed_ctrl (k : PrimKind) (s : State) :
    (s.proceed k).ctrl = storeCtrl s.ctrl (goByte (s.ctrl &&& ctrlUsedMask)) := by
  cases k <;> rfl

@[simp] theorem ctrlField_proceed (f : CtrlField) (k : PrimKind) (s : State) :
    ctrlField f (s.proceed k).ctrl = ctrlField f s.ctrl := by
  rw [proceed_ctrl, ctrlField_store_goByte, ctrlField_used]

@[simp] theorem ctrlInt_proceed (k : PrimKind) (s : State) :
    ctrlInt (s.proceed k).ctrl = false := by
  rw [proceed_ctrl, ctrlInt_store_goByte]

/-- `U_GO` leaves SEQ's registers and the staged byte alone (R125). -/
theorem proceed_frame (k : PrimKind) (s : State) :
    s.proceed k = { s with
      ctrl := (s.proceed k).ctrl, trace := (s.proceed k).trace, inflight := (s.proceed k).inflight
      stopBusy := (s.proceed k).stopBusy } := by
  cases k <;> rfl

/-! ## Between two primitives -/

/-- What holds of the controller where nothing is requested or in flight: in `IDLE`, at `CFG`, and
from a phase's `CHK` on. -/
def Quiet (s : State) : Prop :=
  s.uw = none ∧ s.ctrl &&& ~~~ctrlUsedMask = 0#8 ∧ ctrlField .start s.ctrl = false ∧
    (ctrlField .stop s.ctrl = true → s.stopBusy = true) ∧ s.inflight = none ∧
    (s.initialized = false →
      s.trace = [] ∧ s.ctrl = 0#8 ∧ s.inflight = none ∧ s.stopBusy = false) ∧
    (s.initialized = true → ctrlField .enable s.ctrl = true)

theorem SeqFacts.inflight_none {s : State} (h : SeqFacts s) (hu : s.us ≠ .wait) :
    s.inflight = none := by
  cases hp : s.inflight with
  | none => rfl
  | some p => exact absurd (h.launched p hp).1 hu

theorem SeqFacts.quiet {s : State} (h : SeqFacts s) (hu : s.us.requests = false) : Quiet s := by
  have hgo : s.us ≠ .go := by rintro hgo; rw [hgo] at hu; cases hu
  have hwait : s.us ≠ .wait := by rintro hwait; rw [hwait] at hu; cases hu
  exact ⟨h.uw, h.reserved, by simp [h.start, hu], fun hs => (h.stop hs).resolve_right (hgo ·.2),
    h.inflight_none hwait, h.fresh, h.enable⟩

/-- A quiet state at `CFG` has the facts if its SEQ registers fit. -/
theorem Quiet.facts {s : State} (h : Quiet s) (hu : s.us = .cfg) (hpc : pcOk s = true)
    (hop : opFitsPhase s.op s.ph = true)
    (hlen : s.ph ≠ .idle → (s.op = .readBurst → s.len ≠ 0#8) ∧ (s.op = .readReg → s.len = 1#8))
    (hidx : s.ph = .rx → s.idx.toNat < s.len.toNat)
    (hgate : s.ph ≠ .idle → s.initialized = (s.ph != .init))
    (hhidden : s.ph ≠ .idle → s.resultValid = false)
    (hcount : s.ph = .idle → s.resultValid = true →
      s.count = if s.result = .ok then s.okCount else 0#8) : SeqFacts s := by
  obtain ⟨huw, hres, hstart, hstop, hnone, hfresh, henable⟩ := h
  refine ⟨huw, hres, hpc, hop, hlen, hidx, ?_, fun hs => .inl (hstop hs), ?_, ?_, ?_, ?_, ?_, ?_,
    hgate, hfresh, henable, hhidden, hcount⟩
  · simpa [hu, MicroStep.requests] using hstart
  · simp [hu]
  · simp [hnone]
  · simp [hu]
  · simp [hu]
  · simp [hu, MicroStep.inWindow]
  · simp [hu]

/-- Back in `IDLE` (R12, R157). -/
theorem Quiet.facts_respond {s : State} (h : Quiet s) (k : Result) {c : Byte}
    (hc : c = if k = .ok then s.okCount else 0#8) : SeqFacts (respond k c s) :=
  Quiet.facts (s := respond k c s) h rfl rfl rfl (absurd rfl ·) nofun (absurd rfl ·) (absurd rfl ·)
    fun _ _ => hc

/-! ## SEQ's rows keep the facts -/

theorem SeqFacts.initialized {s : State} (h : SeqFacts s) (hp : s.ph ≠ .idle) (hi : s.ph ≠ .init) :
    s.initialized = true := by
  rw [h.gate hp]
  exact bne_iff_ne.mpr hi

theorem SeqFacts.init_row {s : State} (h : SeqFacts s) (hp : s.ph = .init) :
    SeqFacts (respond .ok 0#8 s.configured) := by
  have hnot : s.initialized = false := by simpa [hp] using h.gate (by simp [hp])
  obtain ⟨-, hctrl, hnone, -⟩ := h.fresh hnot
  have hbyte : s.configured.ctrl = 0x44#8 := by
    change storeCtrl s.ctrl initByte = 0x44#8
    rw [hctrl]
    decide
  have hq : Quiet s.configured := by
    refine ⟨h.uw, ?_, ?_, fun hs => absurd hs ?_, hnone, nofun, fun _ => ?_⟩ <;>
      rw [hbyte] <;> decide
  exact hq.facts_respond .ok (okCount_of_init (s := s) hp h.op).symm

/-- The rows at `CFG`: they write `CTRL` and `DR` alone and lead to `GO`. -/
theorem SeqFacts.to_go {s : State} (h : SeqFacts s) (hu : s.us = .cfg)
    (hidle : s.ph ≠ .idle) (hinit : s.ph ≠ .init) (c d : Byte)
    (hres : c &&& ~~~ctrlUsedMask = 0#8) (hstart : ctrlField .start c = s.ph.isStart)
    (hstop : ctrlField .stop c = true → s.stopBusy = true ∨ s.ph = .stop)
    (henable : ctrlField .enable c = ctrlField .enable s.ctrl)
    (hstaged : s.ph.kind = some .tx → s.phaseByte = some d)
    (hlevel : s.ph = .rx → ctrlField .ack c = s.ackLevel) :
    SeqFacts { s with ctrl := c, dr := d, us := .go } where
  uw := h.uw
  reserved := hres
  pc := by
    have : selected s.ph .go = some .go := selected_go.mpr ⟨⟨hidle, hinit⟩, rfl⟩
    simp [pcOk, this]
  op := h.op
  len := h.len
  idx := h.idx
  start := hstart
  stop := fun hs => (hstop hs).imp_right fun hp => ⟨hp, rfl⟩
  ended := nofun
  launched := fun p hp => by cases hp.symm.trans (h.inflight_none (by simp [hu]))
  staged := fun _ => hstaged
  level := fun hp _ => hlevel hp
  window := nofun
  latch := by simp
  gate := h.gate
  fresh := fun hi => by cases hi.symm.trans (h.initialized hidle hinit)
  enable := fun hi => henable.trans (h.enable hi)
  hidden := h.hidden
  count := h.count

theorem SeqFacts.start_row {s : State} (h : SeqFacts s) (hp : s.ph.isStart = true)
    (hu : s.us = .cfg) : SeqFacts ((s.setField .start true).setPc s.ph .go) := by
  obtain ⟨hidle, hinit, hstop⟩ := awaited_of_isStart hp
  refine h.to_go hu hidle hinit (s.setField .start true).ctrl s.dr
    (storeCtrl_used _ _) ?_ ?_ ?_ ?_ ?_
  · simp [ctrlField_setField, hp]
  · rw [ctrlField_setField]
    exact fun hs => .inl ((h.stop hs).resolve_right (hstop ·.1))
  · simp [ctrlField_setField]
  · intro hk
    cases hph : s.ph <;> simp [hph, Phase.isStart, Phase.kind] at hp hk
  · intro hrx
    rw [hrx] at hp
    cases hp

theorem SeqFacts.stop_row {s : State} (h : SeqFacts s) (hp : s.ph = .stop)
    (hu : s.us = .cfg) : SeqFacts ((s.setField .stop true).setPc s.ph .go) := by
  refine h.to_go hu (by simp [hp]) (by simp [hp]) (s.setField .stop true).ctrl s.dr
    (storeCtrl_used _ _) ?_ (fun _ => .inr hp) ?_ ?_ ?_
  · simp [ctrlField_setField, h.start, hu, hp, MicroStep.requests, Phase.isStart]
  · simp [ctrlField_setField]
  · simp [hp, Phase.kind]
  · simp [hp]

theorem SeqFacts.wbyte_row {s : State} (h : SeqFacts s) {b : Byte} (hb : s.phaseByte = some b)
    (hp : s.ph.kind = some .tx) (hu : s.us = .cfg) : SeqFacts ((s.setDr b).setPc s.ph .go) := by
  have hph : (s.ph ≠ .idle ∧ s.ph ≠ .init) ∧ s.ph ≠ .stop ∧ s.ph ≠ .rx ∧ s.ph.isStart = false := by
    revert hp
    cases s.ph <;> decide
  obtain ⟨⟨hidle, hinit⟩, hstop, hrx, hstart⟩ := hph
  refine h.to_go hu hidle hinit s.ctrl b h.reserved ?_ ?_ rfl (fun _ => hb) (absurd · hrx)
  · simp [h.start, hu, hstart]
  · exact fun hs => .inl ((h.stop hs).resolve_right (hstop ·.1))

theorem SeqFacts.ack_row {s : State} (h : SeqFacts s) (hp : s.ph = .rx) (hu : s.us = .cfg) :
    SeqFacts ((s.setField .ack s.ackLevel).setPc s.ph .go) := by
  refine h.to_go hu (by simp [hp]) (by simp [hp]) (s.setField .ack s.ackLevel).ctrl s.dr
    (storeCtrl_used _ _) ?_ ?_ ?_ ?_ ?_
  · simp [ctrlField_setField, h.start, hu, hp, MicroStep.requests, Phase.isStart]
  · rw [ctrlField_setField]
    exact fun hs => .inl ((h.stop hs).resolve_right (by simp [hp]))
  · simp [ctrlField_setField]
  · simp [hp, Phase.kind]
  · simp [ctrlField_setField]

/-- What a phase SEQ waits in launches is what CTL is handed (R72, R126, R237, R240). -/
theorem SeqFacts.proceed_eq {s : State} (h : SeqFacts s) {k : PrimKind} (hk : s.ph.kind = some k)
    (hp : s.ph ≠ .stop) (hu : s.us = .go) : ∃ p e, phaseLaunches s = some p ∧
      s.proceed k = { s with
        ctrl := (s.proceed k).ctrl, inflight := some p, trace := s.trace ++ [e] } := by
  cases k with
  | start => exact ⟨_, _, by simp [phaseLaunches, hk], rfl⟩
  | tx => exact ⟨_, _, by simp [phaseLaunches, hk, h.staged hu hk], rfl⟩
  | rx =>
    have hrx : s.ph = .rx := by
      revert hk
      cases s.ph <;> decide
    have hlevel : ctrlField .ack (s.proceed .rx).ctrl = s.ackLevel :=
      (ctrlField_proceed .ack .rx s).trans (h.level hrx (by simp [hu]))
    exact ⟨.rx (ctrlField .ack (s.proceed .rx).ctrl), .rx (ctrlField .ack (s.proceed .rx).ctrl),
      by rw [hlevel]; simp [phaseLaunches, hk], rfl⟩
  | stop => exact absurd (eq_stop_of_kind_stop hk) hp

theorem SeqFacts.go_row {s : State} (h : SeqFacts s) {k : PrimKind} (hk : s.ph.kind = some k)
    (hp : s.ph.awaited) (hu : s.us = .go) : SeqFacts ((s.proceed k).setPc s.ph .wait) := by
  obtain ⟨hidle, hinit, hstop⟩ := hp
  obtain ⟨p, e, hl, he⟩ := h.proceed_eq hk hstop hu
  have hctrl : ctrlInt (s.proceed k).ctrl = false := ctrlInt_proceed k s
  have hfield (f) : ctrlField f (s.proceed k).ctrl = ctrlField f s.ctrl := ctrlField_proceed f k s
  have hres : (s.proceed k).ctrl &&& ~~~ctrlUsedMask = 0#8 := by
    rw [proceed_ctrl]
    exact storeCtrl_used _ _
  rw [he]
  exact {
    uw := h.uw
    reserved := hres
    pc := by
      have : selected s.ph .wait = some .wait := selected_wait.mpr ⟨⟨hidle, hinit, hstop⟩, rfl⟩
      simp [pcOk, this]
    op := h.op
    len := h.len
    idx := h.idx
    start := (hfield .start).trans (by simp [h.start, hu, MicroStep.requests])
    stop := fun hs => .inl ((h.stop ((hfield .stop).symm.trans hs)).resolve_right (hstop ·.1))
    ended := nofun
    launched := fun q hq => by cases hq; exact ⟨rfl, hctrl, hl⟩
    staged := nofun
    level := fun hrx _ => (hfield .ack).trans (h.level hrx (by simp [hu]))
    window := nofun
    latch := by simp
    gate := h.gate
    fresh := fun hi => by cases hi.symm.trans (h.initialized hidle hinit)
    enable := fun hi => (hfield .enable).trans (h.enable hi)
    hidden := h.hidden
    count := h.count }

theorem SeqFacts.goStop_row {s : State} (h : SeqFacts s) (hp : s.ph = .stop) (hu : s.us = .go) :
    SeqFacts (respond .ok s.okCount (s.proceed .stop)) := by
  have hinit : s.initialized = true := h.initialized (by simp [hp]) (by simp [hp])
  have hq : Quiet (s.proceed .stop) := by
    refine ⟨h.uw, storeCtrl_used _ _, ?_, fun _ => rfl, h.inflight_none (by simp [hu]), ?_, ?_⟩
    · simp [h.start, hp, Phase.isStart]
    · exact fun hi => by cases hi.symm.trans hinit
    · exact fun hi => (ctrlField_proceed .enable .stop s).trans (h.enable hi)
  exact hq.facts_respond .ok rfl

/-- From `WAIT` on SEQ moves inside the window of a completed primitive (R140, R239). -/
theorem SeqFacts.in_window {s : State} (h : SeqFacts s) (hi : ctrlInt s.ctrl = true)
    (hu : s.us ≠ .go) {u : MicroStep} (hsel : (selected s.ph u).isSome = true)
    (hw : u.inWindow = true) (hreq : (u.requests && s.ph.isStart) = (s.us.requests && s.ph.isStart))
    (hcfg : s.us ≠ .cfg) {l : Status} (hl : u = .clr ∨ u = .chk → l = statusOf s.sr) :
    SeqFacts { s with us := u, stLatch := l } where
  uw := h.uw
  reserved := h.reserved
  pc := by simp [pcOk, hsel]
  op := h.op
  len := h.len
  idx := h.idx
  start := h.start.trans hreq.symm
  stop := fun hs => .inl ((h.stop hs).resolve_right (hu ·.2))
  ended := by rintro - rfl; cases hw
  launched := fun p hp => by cases hi.symm.trans (h.launched p hp).2.1
  staged := by rintro rfl; cases hw
  level := fun hp _ => h.level hp hcfg
  window := fun _ => hi
  latch := hl
  gate := h.gate
  fresh := h.fresh
  enable := h.enable
  hidden := h.hidden
  count := h.count

theorem SeqFacts.wait_row {s : State} (h : SeqFacts s) (hp : s.ph.awaited) (hu : s.us = .wait)
    (hi : ctrlInt s.ctrl = true) : SeqFacts (s.setPc s.ph .stat) := by
  have hsel : selected s.ph .stat = some .status := selected_status.mpr ⟨hp, rfl⟩
  exact h.in_window hi (by simp [hu]) (by simp [hsel]) rfl (by simp [hu, MicroStep.requests])
    (by simp [hu]) (l := s.stLatch) (by simp)

theorem SeqFacts.status_row {s : State} (h : SeqFacts s) (hp : s.ph.awaited) (hu : s.us = .stat) :
    SeqFacts ((s.setStLatch (statusOf s.sr)).setPc s.ph s.ph.afterStatus) := by
  have hsel : (selected s.ph s.ph.afterStatus).isSome = true ∧ s.ph.afterStatus.inWindow = true ∧
      (s.ph.afterStatus.requests && s.ph.isStart) = s.ph.isStart := by
    revert hp
    unfold Phase.awaited
    cases s.ph <;> decide
  obtain ⟨hsome, hwin, hreq⟩ := hsel
  exact h.in_window (h.window (by rw [hu]; rfl)) (by simp [hu]) hsome hwin
    (hreq.trans (by rw [hu]; rfl)) (by simp [hu]) fun _ => rfl

theorem SeqFacts.byte_row {s : State} (h : SeqFacts s) (hp : s.ph = .rx) (hu : s.us = .chk) :
    SeqFacts (s.setPc s.ph .data) :=
  h.in_window (h.window (by rw [hu]; rfl)) (by simp [hu]) (by rw [hp]; rfl) rfl
    (by rw [hp, hu]; rfl) (by simp [hu]) (l := s.stLatch) (by simp)

theorem SeqFacts.clrStart_row {s : State} (h : SeqFacts s) (hp : s.ph.isStart = true)
    (hu : s.us = .clr) : SeqFacts ((s.setField .start false).setPc s.ph .chk) := by
  have haw : s.ph.awaited := awaited_of_isStart hp
  obtain ⟨hidle, hinit, -⟩ := haw
  have hrx : s.ph ≠ .rx := by rintro hrx; rw [hrx] at hp; cases hp
  have hfield {g : CtrlField} (hg : g ≠ .start) :
      ctrlField g (s.setField .start false).ctrl = ctrlField g s.ctrl := by
    simp [ctrlField_setField, hg]
  exact {
    uw := h.uw
    reserved := storeCtrl_used _ _
    pc := by
      have : selected s.ph .chk = some .check := selected_check.mpr ⟨awaited_of_isStart hp, rfl⟩
      simp [pcOk, this]
    op := h.op
    len := h.len
    idx := h.idx
    start := by simp [ctrlField_setField, MicroStep.requests]
    stop := fun hs =>
      .inl ((h.stop ((hfield (by decide)).symm.trans hs)).resolve_right (by simp [hu]))
    ended := nofun
    launched := fun p hq => by cases hq.symm.trans (h.inflight_none (by simp [hu]))
    staged := nofun
    level := fun hq => absurd hq hrx
    window := fun _ => (ctrlInt_setField _ _ _).trans (h.window (by rw [hu]; rfl))
    latch := fun _ => h.latch (.inl hu)
    gate := h.gate
    fresh := fun hi => by cases hi.symm.trans (h.initialized hidle hinit)
    enable := fun hi => (hfield (by decide)).trans (h.enable hi)
    hidden := h.hidden
    count := h.count }

/-- Where R177 leads: to a phase of the same command, and to `RX` from `SLAR` of a read only. -/
theorem nextPhase_fits {o : Op} {p q : Phase} (h : nextPhase o p = some q)
    (hop : opFitsPhase o p = true) :
    opFitsPhase o q = true ∧ (selected q .cfg).isSome = true ∧ q ≠ .idle ∧ q ≠ .init ∧
      (q = .rx → p = .slar ∧ (o = .readReg ∨ o = .readBurst)) := by
  revert h hop
  cases p <;> cases o <;> cases q <;> decide

theorem SeqFacts.len_pos {s : State} (h : SeqFacts s) (hp : s.ph ≠ .idle)
    (ho : s.op = .readReg ∨ s.op = .readBurst) : 0 < s.len.toNat := by
  obtain ho | ho := ho
  · simp [(h.len hp).2 ho]
  · exact Nat.pos_of_ne_zero fun hz => (h.len hp).1 ho (BitVec.eq_of_toNat_eq hz)

theorem SeqFacts.pass_row {s : State} (h : SeqFacts s) {q : Phase}
    (hq : nextPhase s.op s.ph = some q) (hp : s.ph.awaited) (hu : s.us = .chk) :
    SeqFacts (s.enterPhase q) := by
  obtain ⟨hidle, hinit, -⟩ := hp
  obtain ⟨hop, hsel, hqidle, hqinit, hrx⟩ := nextPhase_fits hq h.op
  have hquiet : Quiet s := h.quiet (by rw [hu]; rfl)
  have hidx : q = .rx → (s.enterPhase q).idx.toNat < s.len.toNat := by
    intro hqrx
    obtain ⟨hslar, ho⟩ := hrx hqrx
    simpa [State.enterPhase, hslar] using h.len_pos hidle ho
  exact Quiet.facts (s := s.enterPhase q) hquiet rfl (by simp [State.enterPhase, pcOk, hsel]) hop
    (fun _ => h.len hidle) hidx
    (fun _ => (h.initialized hidle hinit).trans (bne_iff_ne.mpr hqinit).symm)
    (fun _ => h.hidden hidle)
    (absurd · hqidle)

theorem SeqFacts.abort_row {s : State} (h : SeqFacts s) {r : Result} (hr : r.isBusError = true)
    (hu : s.us = .chk) : SeqFacts (raiseError r s) := by
  have hquiet : Quiet s := h.quiet (by rw [hu]; rfl)
  have hok : r ≠ .ok := by rintro rfl; cases hr
  exact Quiet.facts_respond
    (s := (disturbSlave (s.setBusOwned (Config.freeBusOwned s.draws))).nextDraw) hquiet r
    (by simp [hok])

/-- The byte after one that is not the last is one of the read's (R142, R154). -/
theorem idx_succ_lt {i n : Byte} (h : i.toNat < n.toNat) (hl : i ≠ n - 1#8) :
    (i + 1#8).toNat < n.toNat := by
  bv_omega

theorem SeqFacts.rbyte_row {s : State} (h : SeqFacts s) (hp : s.ph = .rx) (hu : s.us = .data) :
    SeqFacts s.storeByte.nextByte := by
  have hidle : s.ph ≠ .idle := by simp [hp]
  have hinit : s.initialized = true := h.initialized hidle (by simp [hp])
  have hquiet : Quiet s := h.quiet (by rw [hu]; rfl)
  have hread : s.op = .readReg ∨ s.op = .readBurst := by simpa [hp, opFitsPhase] using h.op
  unfold State.nextByte
  split
  next =>
    exact Quiet.facts (s := s.storeByte.setPc .stop .cfg) hquiet rfl rfl
      (by obtain ho | ho := hread <;> simp [State.storeByte, ho, opFitsPhase])
      (fun _ => h.len hidle) nofun (fun _ => hinit) (fun _ => h.hidden hidle) nofun
  next hlast =>
    have hne : s.idx ≠ s.len - 1#8 := by simpa [State.isLast, State.storeByte] using hlast
    exact Quiet.facts (s := (s.storeByte.setIdx (s.idx + 1#8)).setPc .rx .cfg) hquiet rfl rfl
      (hp ▸ h.op) (fun _ => h.len hidle) (fun _ => idx_succ_lt (h.idx hp) hne) (fun _ => hinit)
      (fun _ => h.hidden hidle) nofun

/-- Every row of R150 keeps the facts. -/
theorem SeqFacts.row {s t : State} (h : SeqFacts s) (hr : SeqRow s t) : SeqFacts t := by
  cases hr with
  | init hp => exact h.init_row hp
  | start hp hu => exact h.start_row hp hu
  | stop hp hu => exact h.stop_row hp hu
  | wbyte b hb hp hu => exact h.wbyte_row hb hp hu
  | ack hp hu => exact h.ack_row hp hu
  | go k hk hp hu => exact h.go_row hk hp hu
  | goStop hp hu => exact h.goStop_row hp hu
  | held => exact h
  | wait hp hu hi => exact h.wait_row hp hu hi
  | status hp hu => exact h.status_row hp hu
  | clrStart hp hu => exact h.clrStart_row hp hu
  | pass q hq hp hu => exact h.pass_row hq hp hu
  | byte hp hu => exact h.byte_row hp hu
  | abort r hr hp hu => exact h.abort_row hr hu
  | rbyte hp hu => exact h.rbyte_row hp hu

end Sys2Proof.Machine
end

section
/-! PROOFS. The invariant, continued: the acceptance of commands (spec/43_transactions.md R170),
CTL's steps (spec/20_memory.md R73, R74), HOST's offer and the reset event, and so every step. -/

namespace Sys2Proof.Machine

/-! ## Acceptance keeps the facts (R170) -/

theorem initialized_of_initGate {s : State} (h : initGate s = none) : s.initialized = false := by
  simpa [initGate] using h

theorem initialized_of_initializedGate {s : State} (h : initializedGate s = none) :
    s.initialized = true := by
  simpa [initializedGate] using h

theorem initialized_of_transactionGate {a : Byte} {s : State} (h : transactionGate a s = none) :
    s.initialized = true := by
  unfold transactionGate at h
  split at h
  · exact initialized_of_initializedGate h
  · cases h

theorem SeqFacts.quiet_of_idle {s : State} (h : SeqFacts s) (hp : s.ph = .idle) : Quiet s := by
  have hu : s.us = .cfg := by simpa [pcOk, hp, selected] using h.pc
  exact h.quiet (by rw [hu]; rfl)

/-- The acceptance of an initialised block's command: SEQ's registers are loaded and SEQ is at `CFG`
of the phase `p`. -/
theorem Quiet.facts_enter {s : State} (h : Quiet s) {p : Phase} (hp : p = .start ∨ p = .stop)
    (hph : s.ph = p) (hu : s.us = .cfg) (hop : opFitsPhase s.op p = true)
    (hlen : (s.op = .readBurst → s.len ≠ 0#8) ∧ (s.op = .readReg → s.len = 1#8))
    (hinit : s.initialized = true) (hv : s.resultValid = false) : SeqFacts s := by
  refine h.facts hu ?_ (hph ▸ hop) (fun _ => hlen) ?_ ?_ (fun _ => hv) (fun _ hs => ?_)
  · obtain rfl | rfl := hp <;> simp [pcOk, hph, hu, selected]
  · rw [hph]
    obtain rfl | rfl := hp <;> exact nofun
  · rw [hph]
    obtain rfl | rfl := hp <;> exact fun _ => hinit
  · cases hv.symm.trans hs

theorem SeqFacts.exec_command {i : Instr} {s t : State} (h : SeqFacts s) (hp : s.ph = .idle)
    (hi : kindOf i = none) (ht : exec i s = .next t) : SeqFacts t := by
  have hq : Quiet s := h.quiet_of_idle hp
  have hidle : s.busy = false := State.busy_eq_false_iff.mpr hp
  cases i with
  | init d =>
    rw [exec, execInit] at ht
    obtain ⟨hb, -⟩ | ⟨-, hg, rfl⟩ := accept_cases ht
    · cases hidle.symm.trans hb
    · exact Quiet.facts (s := ((s.setOp .init).setDivr d).setPc .init .cfg) hq rfl rfl rfl
        (fun _ => ⟨nofun, nofun⟩) nofun (fun _ => initialized_of_initGate hg) (fun _ => rfl) nofun
  | writeReg a r v =>
    rw [exec, execWriteReg] at ht
    obtain ⟨hb, -⟩ | ⟨-, hg, rfl⟩ := accept_cases ht
    · cases hidle.symm.trans hb
    · exact Quiet.facts_enter
        (s := (((s.setOp .writeReg).setTarget (slaOperand a) r).setVal v).setPc .start .cfg)
        hq (.inl rfl) rfl rfl rfl ⟨nofun, nofun⟩ (initialized_of_transactionGate hg) rfl
  | readReg a r =>
    rw [exec, execReadReg] at ht
    obtain ⟨hb, -⟩ | ⟨-, hg, rfl⟩ := accept_cases ht
    · cases hidle.symm.trans hb
    · exact Quiet.facts_enter
        (s := (((s.setOp .readReg).setTarget (slaOperand a) r).setLen 1#8).setPc .start .cfg)
        hq (.inl rfl) rfl rfl rfl ⟨nofun, fun _ => rfl⟩ (initialized_of_transactionGate hg) rfl
  | readBurst a r n =>
    rw [exec, execReadBurst] at ht
    obtain ⟨hb, -⟩ | ⟨-, hg, rfl⟩ := accept_cases ht
    · cases hidle.symm.trans hb
    · by_cases hn : n = 0#8
      · simp only [hn, if_true]
        exact Quiet.facts_respond
          (s := ((s.setOp .readBurst).setTarget (slaOperand a) r).setLen 0#8) hq .invalidLength rfl
      · simp only [hn, if_false]
        exact Quiet.facts_enter
          (s := (((s.setOp .readBurst).setTarget (slaOperand a) r).setLen n).setPc .start .cfg)
          hq (.inl rfl) rfl rfl rfl ⟨fun _ => hn, nofun⟩ (initialized_of_transactionGate hg) rfl
  | forceStop =>
    rw [exec, execForceStop] at ht
    obtain ⟨hb, -⟩ | ⟨-, hg, rfl⟩ := accept_cases ht
    · cases hidle.symm.trans hb
    · exact Quiet.facts_enter (s := (s.setOp .forceStop).setPc .stop .cfg)
        hq (.inr rfl) rfl rfl rfl ⟨nofun, nofun⟩ (initialized_of_initializedGate hg) rfl
  | _ => cases hi

/-! ## SEQ's step keeps the facts -/

theorem seqStep_keeps_facts {s t : State} (hs : SeqInv s) (h : seqStep s = .next t) :
    SeqFacts t := by
  have hf : SeqFacts s := (seqInv_iff.mp hs).2
  by_cases hp : s.ph = .idle
  · obtain ⟨-, rfl⟩ | ⟨i, v, hfetch, hexec⟩ := seqStep_cases h
    · exact hf
    · obtain ⟨w, hu, -⟩ | ⟨w, -, -, -, hd, rfl⟩ | ⟨-, hbusy, -⟩ := fetch_run_cases hfetch
      · cases hf.uw.symm.trans hu
      · exact SeqFacts.exec_command (s := s.setCmd none) { hf with } hp
          (kindOf_of_decodeCmd hd) hexec
      · exact absurd hp hbusy
  · obtain ⟨u, hu, hrow⟩ := seqStep_row hs hp
    cases hu.symm.trans h
    exact hf.row hrow

/-! ## CTL's steps keep the facts -/

/-- CTL sets and clears bits that are in use (R99). -/
theorem reserved_ctl : ∀ c : Byte, c &&& ~~~ctrlUsedMask = 0#8 →
    setInt c &&& ~~~ctrlUsedMask = 0#8 ∧ clearStop c &&& ~~~ctrlUsedMask = 0#8 := by
  decide

/-- `E_COMPLETE` (R73): the flag is set where SEQ waits for it. -/
theorem SeqFacts.completeWith {s : State} (h : SeqFacts s) {p : InFlight}
    (hp : s.inflight = some p) (st : Status) (d : Byte) : SeqFacts (completeWith p st d s) := by
  obtain ⟨hu, -, -⟩ := h.launched p hp
  have hinit : s.initialized ≠ false := fun hi => by cases hp.symm.trans (h.fresh hi).2.2.1
  rw [completeWith_eq]
  exact { h with
    reserved := (reserved_ctl s.ctrl h.reserved).1
    start := (ctrlField_setInt _ _).trans h.start
    stop := fun hs => h.stop ((ctrlField_setInt _ _).symm.trans hs)
    ended := fun _ _ => ctrlInt_setInt _
    launched := nofun
    staged := fun hgo => by cases hu.symm.trans hgo
    level := fun hrx hcfg => (ctrlField_setInt _ _).trans (h.level hrx hcfg)
    window := fun _ => ctrlInt_setInt _
    latch := by simp [hu]
    fresh := fun hi => absurd hi hinit
    enable := fun hi => (ctrlField_setInt _ _).trans (h.enable hi) }

theorem SeqFacts.eComplete {s : State} (h : SeqFacts s) (st : Status) (d : Byte) :
    SeqFacts (eComplete st d s) := by
  unfold Machine.eComplete
  split
  next p hp =>
    split
    · exact h.completeWith hp st d
    · exact h
  next => exact h

/-- `E_STOPDONE` (R74): the stop request goes with the stop. -/
theorem SeqFacts.eStopDone {s : State} (h : SeqFacts s) : SeqFacts (eStopDone s) := by
  cases hb : s.stopBusy with
  | false => rwa [eStopDone_disabled hb]
  | true =>
    have hinit : s.initialized ≠ false := fun hi => by cases hb.symm.trans (h.fresh hi).2.2.2
    have hfield {f : CtrlField} (hf : f ≠ .stop) :
        ctrlField f (clearStop s.ctrl) = ctrlField f s.ctrl := ctrlField_clearStop_other hf _
    have hint : ctrlInt (clearStop s.ctrl) = ctrlInt s.ctrl := ctrlInt_clearStop _
    rw [eStopDone_eq hb]
    exact { h with
      reserved := (reserved_ctl s.ctrl h.reserved).2
      start := (hfield (by decide)).trans h.start
      stop := fun hs => by cases (ctrlField_stop_clearStop _).symm.trans hs
      ended := fun hn hw => hint.trans (h.ended hn hw)
      launched := fun p hp =>
        ⟨(h.launched p hp).1, hint.trans (h.launched p hp).2.1, (h.launched p hp).2.2⟩
      level := fun hrx hcfg => (hfield (by decide)).trans (h.level hrx hcfg)
      window := fun hw => hint.trans (h.window hw)
      fresh := fun hi => absurd hi hinit
      enable := fun hi => (hfield (by decide)).trans (h.enable hi) }

/-- HOST's offer is none of SEQ's or CTL's registers (R16). -/
theorem SeqFacts.offer {s : State} (h : SeqFacts s) (w : CmdWord) : SeqFacts (offer w s) := by
  obtain ⟨c, hc⟩ := offer_eq w s
  rw [hc]
  exact { h with }

/-! ## Every agent's move -/

/-- The facts do not speak of the moves to come. -/
theorem SeqFacts.setSchedule {s : State} (h : SeqFacts s) (ms : List Move) :
    SeqFacts (s.setSchedule ms) := { h with }

theorem makeMove_keeps_facts {m : Move} {s t : State} (hs : SeqInv s)
    (h : makeMove m s = .next t) : SeqFacts t := by
  have hf : SeqFacts s := (seqInv_iff.mp hs).2
  cases m with
  | seq => exact seqStep_keeps_facts hs h
  | complete st d => cases h; exact hf.eComplete st d
  | stopDone => cases h; exact hf.eStopDone
  | offer w => cases h; exact hf.offer w
  | reset =>
    cases h
    exact { (seqInv_iff.mp resetStateIsSafe).2 with }

end Sys2Proof.Machine

open Sys2Proof Sys2Proof.Machine

/-- Settles O38: the buffer is kept by any step, and the other facts by the row of R150 that SEQ
takes, by the acceptance of a command, and by every move of CTL and HOST and the reset event. -/
theorem everyStepKeepsSequencerInvariant : Obligations.EveryStepKeepsSequencerInvariant := by
  intro s t hs h
  have hbuf : bufferOk t = true :=
    everyStepKeepsBufferCanonical s t (seqInv_iff.mp hs).1 h
  refine seqInv_iff.mpr ⟨hbuf, ?_⟩
  cases hm : s.schedule with
  | nil =>
    rw [step_nil hm] at h
    exact seqStep_keeps_facts hs h
  | cons m ms =>
    rw [step_cons hm] at h
    exact makeMove_keeps_facts ((seqInv_setSchedule ms).mpr hs) h

end

section
/-! PROOFS. The controller seen from outside (spec/20_memory.md R60 to R75): the launch, the four
registers, and CTL's two steps by value. -/

namespace Sys2Proof.Machine

/-! ## The launch by value -/

/-- `clear_and_proceed` keeps the four fields and clears the rest (R64, R125). -/
theorem proceed_ctrl_eq_and (k : PrimKind) (s : State) :
    (s.proceed k).ctrl = s.ctrl &&& 0x74#8 := by
  rw [proceed_ctrl]
  generalize s.ctrl = c
  revert c
  decide

/-- Where SEQ is after `U_GO` from a phase with a primitive (R150, R155; notes/assumptions/4.md). -/
def State.afterGo (k : PrimKind) (s : State) : State :=
  if s.us = .go then
    if s.ph = .stop then respond .ok s.okCount (s.proceed k) else (s.proceed k).setPc s.ph .wait
  else s.proceed k

theorem exec_uGo_eq {s : State} {k : PrimKind} (hk : s.ph.kind = some k) :
    exec .uGo s = .next (s.afterGo k) := by
  have hphase : s.ph ≠ .idle ∧ s.ph ≠ .init := by
    constructor <;> intro hp <;> rw [hp] at hk <;> cases hk
  rw [exec, execUGo_eq hk, State.afterGo]
  change advance .go (s.proceed k) = _
  by_cases hu : s.us = .go
  · have hsel : selected (s.proceed k).ph (s.proceed k).us = some .go := by
      rw [State.proceed_ph, State.proceed_us]
      exact selected_go.mpr ⟨hphase, hu⟩
    refine advance_selected hsel ?_
    by_cases hp : s.ph = .stop <;> simp [sequel, hu, hp, State.proceed_okCount]
  · have hsel : selected (s.proceed k).ph (s.proceed k).us ≠ some .go := by
      rw [State.proceed_ph, State.proceed_us]
      exact fun h => hu (selected_go.mp h).2
    rw [if_neg hu]
    exact advance_elsewhere hsel

/-- Sequencing after `U_GO` leaves what was launched alone. -/
theorem afterGo_launched (k : PrimKind) (s : State) :
    (s.afterGo k).ctrl = (s.proceed k).ctrl ∧ (s.afterGo k).trace = (s.proceed k).trace ∧
      (s.afterGo k).inflight = (s.proceed k).inflight ∧
      (s.afterGo k).stopBusy = (s.proceed k).stopBusy := by
  unfold State.afterGo
  split_ifs <;> exact ⟨rfl, rfl, rfl, rfl⟩

/-- The launch of a receive takes the acknowledge level from `CTRL` (R76). -/
theorem proceed_rx_launched (s : State) :
    (s.proceed .rx).trace = s.trace ++ [.rx (s.ctrl.getLsbD 6)] ∧
      (s.proceed .rx).inflight = some (.rx (s.ctrl.getLsbD 6)) := by
  have hack : ctrlField .ack (s.proceed .rx).ctrl = s.ctrl.getLsbD 6 := ctrlField_proceed .ack .rx s
  rw [← hack]
  exact ⟨rfl, rfl⟩

/-- The count of the stop step's response is `LEN` for a read and 0 otherwise (R150, R155). -/
theorem okCount_eq (s : State) :
    s.okCount = if s.op = .readReg ∨ s.op = .readBurst then s.len else 0#8 := by
  unfold State.okCount
  cases s.op <;> rfl

/-! ## The registers -/

/-- There are four offsets (R60). -/
theorem ofOffset_of_le {a : Nat} (h : 4 ≤ a) : CtlReg.ofOffset a = none := by
  obtain ⟨k, rfl⟩ := Nat.exists_eq_add_of_le' h
  rfl

/-- An access that is not one byte wide, or at no offset of the four, is refused (R61). -/
theorem memAccess_refused {a n : Nat} (h : n ≠ 1 ∨ 4 ≤ a) (v : Byte) (s : State) :
    (∃ r, memRead a n s = .error r) ∧ ∃ r, memWrite a n v s = .error r := by
  by_cases hn : n = 1
  · have ha : CtlReg.ofOffset a = none := ofOffset_of_le (h.resolve_left (· hn))
    exact ⟨⟨.noSuchControllerRegister, by simp [memRead, hn, ha]⟩,
      ⟨.noSuchControllerRegister, by simp [memWrite, hn, ha]⟩⟩
  · exact ⟨⟨_, by simp [memRead, hn]; rfl⟩, ⟨_, memWrite_width hn a v s⟩⟩

/-! ## CTL's steps by value -/

theorem setInt_eq_or (c : Byte) : setInt c = c ||| 0x80#8 := by
  revert c
  decide

theorem clearStop_eq_and (c : Byte) : clearStop c = c &&& 0xEF#8 := by
  revert c
  decide

/-- `STATUS` is `SR[7:3]` (R42, R100). -/
theorem getLsbD_packSr (st : Status) (low : BitVec 3) {i : Nat} (hi : i < 5) :
    (packSr st low).getLsbD (i + 3) = st.getLsbD i := by
  have hlow : ¬ i + 3 < 3 := by omega
  rw [packSr, BitVec.getLsbD_append, if_neg hlow, Nat.add_sub_cancel]

/-- A completion is enabled for what is in flight, but for a START behind an unfinished stop
(R73, R75). -/
theorem completeEnabled_iff {s : State} : s.completeEnabled = true ↔
    ∃ p, s.inflight = some p ∧ (p = .start → s.stopBusy = false) := by
  unfold State.completeEnabled
  cases s.inflight with
  | none => simp
  | some p => cases p <;> simp

/-- A completed START with either start code makes the bus owned (R73). -/
theorem ownedAfter_start {p : InFlight} {st : Status} {b : Bool}
    (h : p = .start ∧ (st = Config.stStartOk ∨ st = Config.stRstartOk)) :
    ownedAfter p st b = true := by
  obtain ⟨rfl, rfl | rfl⟩ := h <;> simp [ownedAfter]

/-- Any other completion leaves the ownership as it was (R73). -/
theorem ownedAfter_other {p : InFlight} {st : Status} {b : Bool}
    (h : ¬ (p = .start ∧ (st = Config.stStartOk ∨ st = Config.stRstartOk))) :
    ownedAfter p st b = b := by
  cases p with
  | start =>
    obtain ⟨hs, hr⟩ := not_or.mp fun hst => h ⟨rfl, hst⟩
    simp [ownedAfter, beq_false_of_ne hs, beq_false_of_ne hr]
  | tx b => rfl
  | rx a => rfl

end Sys2Proof.Machine

open Sys2Proof Sys2Proof.Machine

/-- Settles O23: the launch is the one of the phase's kind; the clauses are read off it, phase by
phase, and sequencing after it is the row of R150. -/
theorem goLaunchesPhasePrimitive : Obligations.GoLaunchesPhasePrimitive := by
  intro s hidle hinit
  obtain ⟨k, hk⟩ := exists_kind_of_selected_go (selected_go.mpr ⟨⟨hidle, hinit⟩, rfl⟩)
  obtain ⟨hctrl, htrace, hinfl, hbusy⟩ := afterGo_launched k s
  refine ⟨s.afterGo k, exec_uGo_eq hk, hctrl.trans (proceed_ctrl_eq_and k s), ?_⟩
  rw [htrace, hinfl, hbusy, hctrl]
  refine ⟨fun hp => ?_, fun hp => ?_, fun hp => ?_, fun hp => ?_, fun hu hp => ?_, fun hu hp => ?_,
    fun hu => ?_⟩
  · obtain hp | hp := hp <;> rw [hp] at hk <;> cases hk <;> exact ⟨rfl, rfl, rfl⟩
  · obtain hp | hp | hp | hp := hp <;> rw [hp] at hk <;> cases hk <;> exact ⟨rfl, rfl, rfl⟩
  · rw [hp] at hk
    cases hk
    obtain ⟨ht, hi⟩ := proceed_rx_launched s
    exact ⟨ht, hi, rfl⟩
  · rw [hp] at hk
    cases hk
    exact ⟨rfl, rfl, rfl⟩
  · rw [State.afterGo, if_pos hu, if_neg hp]
    cases k with
    | start | tx | rx => rfl
    | stop => exact absurd (eq_stop_of_kind_stop hk) hp
  · rw [hp] at hk
    cases hk
    rw [State.afterGo, if_pos hu, if_pos hp, respond_eq, okCount_eq]
    rfl
  · rw [State.afterGo, if_neg hu]
    exact proceed_frame k s

/-- Settles O32: the register map has four offsets, and each access is a case of its definition. -/
theorem controllerAccessesAreBytesToFourRegisters :
    Obligations.ControllerAccessesAreBytesToFourRegisters := by
  intro a n v s
  refine ⟨fun h => memAccess_refused h v s, ⟨_, _, memRead_ctrl s⟩, ⟨_, _, memRead_sr s⟩,
    ⟨_, _, memRead_dr s⟩, ⟨_, rfl⟩, fun hv => ?_, ⟨_, rfl⟩, memWrite_dr v s, memWrite_br v s⟩
  exact ⟨_, (memWrite_ctrl v s).trans (writeCtrl_plain hv s), rfl⟩

/-- Settles O33: an enabled completion by value, and the two ways in which it is not enabled. -/
theorem completionWritesStatusAndFlag : Obligations.CompletionWritesStatusAndFlag := by
  intro s st d ms hs
  have hstep : step s = .next (eComplete st d (s.setSchedule ms)) := step_cons hs
  constructor
  · intro p hp hstop
    have henabled : (s.setSchedule ms).completeEnabled = true :=
      completeEnabled_iff.mpr ⟨p, hp, hstop⟩
    rw [hstep, eComplete_enabled (s := s.setSchedule ms) hp henabled, completeWith_eq]
    exact ⟨_, rfl, fun i hi => getLsbD_packSr st _ hi, setInt_eq_or _, rfl,
      fun a ha => ha ▸ rfl, ownedAfter_start, ownedAfter_other, rfl⟩
  · intro hnone
    have hdisabled : (s.setSchedule ms).completeEnabled = false := by
      obtain h | ⟨h, hb⟩ := hnone
      · simp [State.completeEnabled, h]
      · simp [State.completeEnabled, h, hb]
    rw [hstep, eComplete_disabled hdisabled]
    rfl

/-- Settles O34: the end of a stop by value, and its absence. -/
theorem stopDoneReleasesBus : Obligations.StopDoneReleasesBus := by
  intro s ms hs
  have hstep : step s = .next (eStopDone (s.setSchedule ms)) := step_cons hs
  constructor
  · intro hb
    rw [hstep, eStopDone_eq (s := s.setSchedule ms) hb]
    exact ⟨_, rfl, clearStop_eq_and _, rfl⟩
  · intro hb
    rw [hstep, eStopDone_disabled (s := s.setSchedule ms) hb]
    rfl

end

section
/-! PROOFS. A live bus ends every command (spec/20_memory.md R78, spec/42_protocol_steps.md R160,
spec/43_transactions.md R178): the number of steps left falls with every step. -/

namespace Sys2Proof.Machine

/-! ## The steps left -/

/-- SEQ's micro-steps of an awaited phase from `CHK`, or `CLR`, on (R150). -/
def Phase.tail : Phase → Nat
  | .start | .rstart | .rx => 2
  | .slaw | .rega | .value | .slar => 1
  | .idle | .stop | .init => 0

/-- The steps left in the phase `p` at the micro-step `u`, CTL's completion among them while a
primitive is in flight (R150, R160). -/
def stepsInPhase (p : Phase) (u : MicroStep) (flying : Bool) : Nat :=
  match p with
  | .idle => 0
  | .init => 1
  | .stop => if u = .cfg then 2 else 1
  | _ => match u with
    | .cfg => 5 + p.tail
    | .go => 4 + p.tail
    | .wait => 2 + p.tail + flying.toNat
    | .stat => 1 + p.tail
    | .clr => 2
    | .chk => if p = .rx then 2 else 1
    | .data => 1

/-- The steps of the phases after `REGA`: `VALUE` and `STOP`, or a read of `n` bytes (R177). -/
def stepsAfterRega (o : Op) (n : Nat) : Nat := if o = .writeReg then 8 else 7 * n + 15

/-- The steps of the phases after `p` of the command `o`, for a read of `n` bytes at the index `i`
(R160, R177). -/
def stepsAfter (o : Op) (n i : Nat) : Phase → Nat
  | .idle | .init | .stop => 0
  | .value => 2
  | .rx => 7 * (n - 1 - i) + 2
  | .slar => 7 * n + 2
  | .rstart => 7 * n + 8
  | .rega => stepsAfterRega o n
  | .slaw => 6 + stepsAfterRega o n
  | .start => 12 + stepsAfterRega o n

/-- The steps left of the command under way and of the stop before it. -/
def stepsLeft (s : State) : Nat :=
  stepsInPhase s.ph s.us s.inflight.isSome + stepsAfter s.op s.len.toNat s.idx.toNat s.ph +
    s.stopBusy.toNat

theorem stepsLeft_le (s : State) : stepsLeft s ≤ 36 + 7 * s.len.toNat := by
  have hbusy : s.stopBusy.toNat ≤ 1 := Bool.toNat_le _
  have hin : stepsInPhase s.ph s.us s.inflight.isSome ≤ 7 := by
    generalize s.inflight.isSome = f
    cases s.ph <;> cases s.us <;> cases f <;> decide
  have hafter : stepsAfter s.op s.len.toNat s.idx.toNat s.ph ≤ 27 + 7 * s.len.toNat := by
    have hrega : stepsAfterRega s.op s.len.toNat ≤ 15 + 7 * s.len.toNat := by
      unfold stepsAfterRega
      split <;> omega
    cases s.ph <;> simp only [stepsAfter] <;> omega
  unfold stepsLeft
  omega

/-- A phase has a step left at each of its micro-steps. -/
theorem stepsInPhase_pos {p : Phase} (hp : p ≠ .idle) (u : MicroStep) (f : Bool) :
    0 < stepsInPhase p u f := by
  revert hp
  cases p <;> cases u <;> cases f <;> decide

theorem stepsLeft_pos {s : State} (hp : s.ph ≠ .idle) : 0 < stepsLeft s := by
  have hin : 0 < stepsInPhase s.ph s.us s.inflight.isSome := stepsInPhase_pos hp _ _
  unfold stepsLeft
  omega

/-- Progress inside the phase. -/
theorem stepsLeft_lt_of_phase {s t : State} (hph : t.ph = s.ph) (hop : t.op = s.op)
    (hlen : t.len = s.len) (hidx : t.idx = s.idx) (hb : t.stopBusy = s.stopBusy)
    (h : stepsInPhase s.ph t.us t.inflight.isSome < stepsInPhase s.ph s.us s.inflight.isSome) :
    stepsLeft t < stepsLeft s := by
  unfold stepsLeft
  rw [hph, hop, hlen, hidx, hb]
  omega

/-! ## Every step leaves fewer -/

/-- From `CFG` to `GO`. -/
theorem stepsInPhase_go {p : Phase} (hidle : p ≠ .idle) (hinit : p ≠ .init) (f : Bool) :
    stepsInPhase p .go f < stepsInPhase p .cfg f := by
  revert hidle hinit
  cases p <;> decide +revert

/-- From `GO` to `WAIT` with the primitive in flight, on to `WAIT` without it, and to `STAT`. -/
theorem stepsInPhase_wait {p : Phase} (hp : p.awaited) (f : Bool) :
    stepsInPhase p .wait true < stepsInPhase p .go f ∧
      stepsInPhase p .wait false < stepsInPhase p .wait true ∧
      stepsInPhase p .stat f < stepsInPhase p .wait f := by
  revert hp
  unfold Phase.awaited
  cases p <;> cases f <;> decide

/-- From `STAT` on. -/
theorem stepsInPhase_afterStatus {p : Phase} (hp : p.awaited) (f : Bool) :
    stepsInPhase p p.afterStatus f < stepsInPhase p .stat f := by
  revert hp
  unfold Phase.awaited
  cases p <;> cases f <;> decide

theorem stepsInPhase_clr {p : Phase} (hp : p.isStart = true) (f : Bool) :
    stepsInPhase p .chk f < stepsInPhase p .clr f := by
  revert hp
  cases p <;> cases f <;> decide

/-- R177, row by row. -/
theorem nextPhase_cases {o : Op} {p q : Phase} (h : nextPhase o p = some q) :
    (p = .start ∧ q = .slaw) ∨ (p = .slaw ∧ q = .rega) ∨ (p = .rega ∧ o = .writeReg ∧ q = .value) ∨
      (p = .rega ∧ o ≠ .writeReg ∧ q = .rstart) ∨ (p = .value ∧ q = .stop) ∨
      (p = .rstart ∧ q = .slar) ∨ (p = .slar ∧ q = .rx) := by
  revert h
  cases p <;> cases o <;> cases q <;> decide

/-- The phase SEQ enters from `p` is counted among those after it (R177). -/
theorem stepsAfter_nextPhase {o : Op} {p q : Phase} {n i j : Nat} (h : nextPhase o p = some q)
    (hrx : q = .rx → 0 < n ∧ j = 0) (f : Bool) :
    stepsInPhase q .cfg f + stepsAfter o n j q ≤ stepsAfter o n i p := by
  obtain ⟨rfl, rfl⟩ | ⟨rfl, rfl⟩ | ⟨rfl, ho, rfl⟩ | ⟨rfl, ho, rfl⟩ | ⟨rfl, rfl⟩ | ⟨rfl, rfl⟩ |
    ⟨rfl, rfl⟩ := nextPhase_cases h
  case inr.inr.inr.inr.inr.inr =>
    obtain ⟨hn, rfl⟩ := hrx rfl
    simp only [stepsInPhase, stepsAfter, Phase.tail]
    omega
  all_goals
    simp [stepsInPhase, stepsAfter, stepsAfterRega, Phase.tail, *] <;> omega

/-- Entering the next phase, `IDX` 0 before the first byte. -/
theorem stepsLeft_enterPhase {s : State} (h : SeqFacts s) {q : Phase}
    (hq : nextPhase s.op s.ph = some q) (hp : s.ph.awaited) :
    stepsLeft (s.enterPhase q) < stepsLeft s := by
  have hrx : q = .rx → 0 < s.len.toNat ∧ (s.enterPhase q).idx.toNat = 0 := by
    intro hqrx
    obtain ⟨-, -, -, -, hslar⟩ := nextPhase_fits hq h.op
    obtain ⟨hph, ho⟩ := hslar hqrx
    exact ⟨h.len_pos hp.1 ho, by simp [State.enterPhase, hph]⟩
  have hafter := stepsAfter_nextPhase (i := s.idx.toNat) hq hrx s.inflight.isSome
  have hin : 0 < stepsInPhase s.ph s.us s.inflight.isSome := stepsInPhase_pos hp.1 _ _
  have hleft : stepsLeft (s.enterPhase q) =
      stepsInPhase q .cfg s.inflight.isSome +
        stepsAfter s.op s.len.toNat (s.enterPhase q).idx.toNat q + s.stopBusy.toNat := rfl
  rw [hleft, stepsLeft]
  omega

/-- On to the next byte, or to the stop. -/
theorem stepsLeft_nextByte {s : State} (h : SeqFacts s) (hp : s.ph = .rx) (hu : s.us = .data) :
    stepsLeft s.storeByte.nextByte < stepsLeft s := by
  have hidx : s.idx.toNat < s.len.toNat := h.idx hp
  have hs : stepsLeft s = 1 + (7 * (s.len.toNat - 1 - s.idx.toNat) + 2) + s.stopBusy.toNat := by
    simp only [stepsLeft, hp, hu, stepsInPhase, stepsAfter]
  rw [hs]
  unfold State.nextByte
  split
  next =>
    have ht : stepsLeft (s.storeByte.setPc .stop .cfg) = 2 + s.stopBusy.toNat := rfl
    omega
  next hlast =>
    have hne : s.idx ≠ s.len - 1#8 := by simpa [State.isLast, State.storeByte] using hlast
    have hlt : (s.idx + 1#8).toNat < s.len.toNat := idx_succ_lt hidx hne
    have hsucc : (s.idx + 1#8).toNat = s.idx.toNat + 1 := by bv_omega
    have ht : stepsLeft ((s.storeByte.setIdx (s.storeByte.idx + 1#8)).setPc .rx .cfg) =
        7 + (7 * (s.len.toNat - 1 - (s.idx + 1#8).toNat) + 2) + s.stopBusy.toNat := rfl
    omega

/-- Every row of R150 that does not end the command and does not hold leaves fewer steps. -/
theorem SeqRow.stepsLeft_lt {s t : State} (h : SeqFacts s) (hr : SeqRow s t) (ht : t.ph ≠ .idle)
    (hheld : s.us = .wait → ctrlInt s.ctrl = true) : stepsLeft t < stepsLeft s := by
  cases hr with
  | init | goStop | abort => exact absurd rfl ht
  | held hu hi => cases hi.symm.trans (hheld hu)
  | start hp hu =>
    obtain ⟨hidle, hinit, -⟩ := awaited_of_isStart hp
    exact stepsLeft_lt_of_phase rfl rfl rfl rfl rfl (hu ▸ stepsInPhase_go hidle hinit _)
  | wbyte b hb hp hu =>
    have hph : s.ph ≠ .idle ∧ s.ph ≠ .init := by
      revert hp
      cases s.ph <;> decide
    exact stepsLeft_lt_of_phase rfl rfl rfl rfl rfl (hu ▸ stepsInPhase_go hph.1 hph.2 _)
  | stop hp hu | ack hp hu =>
    exact stepsLeft_lt_of_phase rfl rfl rfl rfl rfl
      (hu ▸ stepsInPhase_go (by simp [hp]) (by simp [hp]) _)
  | go k hk hp hu =>
    obtain ⟨p, e, -, he⟩ := h.proceed_eq hk hp.2.2 hu
    rw [he]
    exact stepsLeft_lt_of_phase rfl rfl rfl rfl rfl (hu ▸ (stepsInPhase_wait hp _).1)
  | wait hp hu =>
    exact stepsLeft_lt_of_phase rfl rfl rfl rfl rfl (hu ▸ (stepsInPhase_wait hp _).2.2)
  | status hp hu =>
    exact stepsLeft_lt_of_phase rfl rfl rfl rfl rfl (hu ▸ stepsInPhase_afterStatus hp _)
  | clrStart hp hu =>
    exact stepsLeft_lt_of_phase rfl rfl rfl rfl rfl (hu ▸ stepsInPhase_clr hp _)
  | byte hp hu =>
    refine stepsLeft_lt_of_phase rfl rfl rfl rfl rfl ?_
    rw [hp, hu]
    exact (by decide : (1 : Nat) < 2)
  | pass q hq hp => exact stepsLeft_enterPhase h hq hp
  | rbyte hp hu => exact stepsLeft_nextByte h hp hu

/-- The phase of a primitive in flight is one SEQ waits in (R72, R126). -/
theorem awaited_of_phaseLaunches {s : State} {p : InFlight} (h : phaseLaunches s = some p) :
    s.ph.awaited := by
  unfold Phase.awaited
  refine ⟨?_, ?_, ?_⟩ <;> intro hp <;> simp [phaseLaunches, hp, Phase.kind] at h

theorem stepsLeft_completeWith {s : State} (h : SeqFacts s) {p : InFlight}
    (hp : s.inflight = some p) (st : Status) (d : Byte) :
    stepsLeft (completeWith p st d s) < stepsLeft s := by
  obtain ⟨hu, -, hl⟩ := h.launched p hp
  rw [completeWith_eq]
  refine stepsLeft_lt_of_phase rfl rfl rfl rfl rfl ?_
  rw [hu, hp]
  exact (stepsInPhase_wait (awaited_of_phaseLaunches hl) true).2.1

theorem stepsLeft_eStopDone {s : State} (hb : s.stopBusy = true) :
    stepsLeft (eStopDone s) < stepsLeft s := by
  rw [eStopDone_eq hb]
  simp [stepsLeft, hb]

/-! ## The live run -/

/-- The live controller's move answers a state, and unless it ends the command it leaves fewer
steps. -/
theorem step_liveMove (ans : State → Status × Byte) {s : State} (hs : SeqInv s)
    (hp : s.ph ≠ .idle) : ∃ t, step (s.setSchedule [liveMove ans s]) = .next t ∧
      (t.ph ≠ .idle → stepsLeft t < stepsLeft s) := by
  have hf : SeqFacts s := (seqInv_iff.mp hs).2
  rw [step_cons rfl]
  unfold liveMove
  split
  next he =>
    obtain ⟨p, hfl, -⟩ := completeEnabled_iff.mp he
    refine ⟨_, rfl, fun _ => ?_⟩
    rw [eComplete_enabled (by exact hfl) (by exact he)]
    exact stepsLeft_completeWith (s := s.setSchedule []) (hf.setSchedule []) hfl _ _
  next he =>
    split
    next hb => exact ⟨_, rfl, fun _ => stepsLeft_eStopDone (s := s.setSchedule []) hb⟩
    next hb =>
      have hnone : s.inflight = none := by
        by_contra hne
        obtain ⟨p, hp⟩ := Option.ne_none_iff_exists'.mp hne
        exact he (completeEnabled_iff.mpr ⟨p, hp, fun _ => by simpa using hb⟩)
      obtain ⟨t, ht, hrow⟩ := seqStep_row (s := s.setSchedule []) hs hp
      exact ⟨t, ht, fun hne => hrow.stepsLeft_lt (s := s.setSchedule []) (hf.setSchedule []) hne
        (hf.ended hnone)⟩

theorem liveRun_succ {ans : State → Status × Byte} {n : Nat} {s t : State}
    (h : step (s.setSchedule [liveMove ans s]) = .next t) :
    liveRun ans (n + 1) s = liveRun ans n t := by
  simp [liveRun, h]

/-- The live controller never resets. -/
theorem liveMove_ne_reset (ans : State → Status × Byte) (s : State) : liveMove ans s ≠ .reset := by
  unfold liveMove
  split_ifs <;> exact nofun

/-- A command under way ends with a response within the steps left. -/
theorem exists_liveRun (ans : State → Status × Byte) {m : Nat} {s : State} (hs : SeqInv s)
    (hp : s.ph ≠ .idle) (hm : stepsLeft s ≤ m) :
    ∃ n t, n ≤ m ∧ liveRun ans n s = .next t ∧ t.busy = false ∧ t.resultValid = true := by
  induction m generalizing s with
  | zero => exact absurd (stepsLeft_pos hp) (by omega)
  | succ m ih =>
    obtain ⟨t, ht, hlt⟩ := step_liveMove ans hs hp
    by_cases hidle : t.ph = .idle
    · have hbusy : s.busy = true := by simpa [State.busy] using hp
      have hresp := busyEndsOnlyWithResponse (s.setSchedule [liveMove ans s]) t
        ((seqInv_setSchedule _).mpr hs) hbusy ht (State.busy_eq_false_iff.mpr hidle)
        (by simpa using liveMove_ne_reset ans s)
      exact ⟨1, t, by omega, liveRun_succ ht, State.busy_eq_false_iff.mpr hidle, hresp.1⟩
    · have hinv : SeqInv t :=
        everyStepKeepsSequencerInvariant _ t ((seqInv_setSchedule _).mpr hs) ht
      have hlt' := hlt hidle
      obtain ⟨n, v, hn, hrun, hend⟩ := ih hinv hidle (by omega)
      exact ⟨n + 1, v, by omega, (liveRun_succ ht).trans hrun, hend⟩

end Sys2Proof.Machine

open Sys2Proof Sys2Proof.Machine

/-- Settles O53: the steps left fall with every live step and are at most the bound at the start. -/
theorem liveBusEndsEveryCommand : Obligations.LiveBusEndsEveryCommand := by
  intro ans s hs hbusy
  have hp : s.ph ≠ .idle := by simpa [State.busy] using hbusy
  exact exists_liveRun ans hs hp (stepsLeft_le s)

end

section
/-! PROOFS. Runs under a schedule: what the moves of one phase lead to, phase by phase
(spec/42_protocol_steps.md R151 to R158). -/

namespace Sys2Proof.Machine

/-! ## Runs, whatever moves come after -/

/-- The moves `l` lead from `s` to `t`, whatever moves come after them. -/
def Leads (l : List Move) (s t : State) : Prop :=
  ∀ ms, runFor l.length (s.setSchedule (l ++ ms)) = .next (t.setSchedule ms)

theorem Leads.nil (s : State) : Leads [] s s := fun _ => rfl

theorem Leads.append {l l' : List Move} {s t u : State} (h : Leads l s t) (h' : Leads l' t u) :
    Leads (l ++ l') s u := by
  intro ms
  rw [List.length_append, List.append_assoc, runFor_add (h (l' ++ ms))]
  exact h' ms

theorem Leads.cons {m : Move} {l : List Move} {s t u : State} (h : Leads [m] s t)
    (h' : Leads l t u) : Leads (m :: l) s u :=
  Leads.append (l := [m]) h h'

theorem Leads.of_makeMove {m : Move} {s t : State}
    (h : ∀ ms, makeMove m (s.setSchedule ms) = .next (t.setSchedule ms)) : Leads [m] s t := by
  intro ms
  have hstep : step (s.setSchedule (m :: ms)) = .next (t.setSchedule ms) :=
    (step_cons rfl).trans (h ms)
  exact runFor_succ (n := 0) hstep

/-- SEQ's move. -/
theorem Leads.seq {s t : State}
    (h : ∀ ms, seqStep (s.setSchedule ms) = .next (t.setSchedule ms)) : Leads [.seq] s t :=
  .of_makeMove h

/-- A schedule that begins with the moves. -/
theorem Leads.runFor {l ms : List Move} {s t : State} (h : Leads l s t)
    (hs : s.schedule = l ++ ms) : Machine.runFor l.length s = .next (t.setSchedule ms) := by
  have h' := h ms
  rwa [← hs] at h'

/-! ## CTL's moves -/

theorem leads_complete {s : State} {p : InFlight} (hp : s.inflight = some p)
    (hb : p = .start → s.stopBusy = false) (st : Status) (d : Byte) :
    Leads [.complete st d] s (completeWith p st d s) := by
  have he : s.completeEnabled = true := completeEnabled_iff.mpr ⟨p, hp, hb⟩
  refine .of_makeMove fun ms => ?_
  rw [makeMove, eComplete_enabled (s := s.setSchedule ms) hp he]
  rfl

/-- The completions that CTL tries while none is enabled do nothing (R75). -/
theorem leads_completionMoves {s : State} (h : s.completeEnabled = false)
    (early : List (Status × Byte)) : Leads (completionMoves early) s s := by
  induction early with
  | nil => exact .nil s
  | cons x early ih =>
    refine .cons (.of_makeMove fun ms => ?_) ih
    rw [makeMove, eComplete_disabled (s := s.setSchedule ms) h]

theorem leads_stopDone {s : State} (h : s.stopBusy = true) :
    Leads [.stopDone] s (eStopDone s) := by
  refine .of_makeMove fun ms => ?_
  rw [makeMove, eStopDone_eq (s := s.setSchedule ms) h, eStopDone_eq h]
  rfl

/-- A start launched behind an unfinished stop waits for its end (R75). -/
theorem leads_waitForStop {s : State} (hp : s.inflight = some .start) (hb : s.stopBusy = true)
    (early : List (Status × Byte)) : Leads (waitForStop early) s (eStopDone s) :=
  (leads_completionMoves (by simp [State.completeEnabled, hp, hb]) early).append
    (leads_stopDone hb)

/-! ## SEQ's moves: the rows of R150 -/

section Rows

variable {s : State} (huw : s.uw = none)
include huw

theorem leads_start (hp : s.ph.isStart = true) (hu : s.us = .cfg) :
    Leads [.seq] s ((s.setField .start true).setPc s.ph .go) :=
  .seq fun ms => seqStep_start (s := s.setSchedule ms) huw (selected_start.mpr ⟨hp, hu⟩)

theorem leads_wbyte (hp : s.ph.kind = some .tx) (hu : s.us = .cfg) {b : Byte}
    (hb : s.phaseByte = some b) : Leads [.seq] s ((s.setDr b).setPc s.ph .go) :=
  .seq fun ms => seqStep_wbyte (s := s.setSchedule ms) huw (selected_wbyte.mpr ⟨hp, hu⟩) hb

theorem leads_ack (hp : s.ph = .rx) (hu : s.us = .cfg) :
    Leads [.seq] s ((s.setField .ack s.ackLevel).setPc s.ph .go) :=
  .seq fun ms => seqStep_ack (s := s.setSchedule ms) huw (selected_ack.mpr ⟨hp, hu⟩)

theorem leads_go {k : PrimKind} (hk : s.ph.kind = some k) (hp : s.ph.awaited) (hu : s.us = .go) :
    Leads [.seq] s ((s.proceed k).setPc s.ph .wait) := by
  obtain ⟨hidle, hinit, hstop⟩ := hp
  have hsel : selected s.ph s.us = some .go := selected_go.mpr ⟨⟨hidle, hinit⟩, hu⟩
  cases k with
  | start | tx | rx => exact .seq fun ms => seqStep_go (s := s.setSchedule ms) huw hsel hk hstop
  | stop => exact absurd (eq_stop_of_kind_stop hk) hstop

theorem leads_stop (hp : s.ph = .stop) (hu : s.us = .cfg) :
    Leads [.seq] s ((s.setField .stop true).setPc s.ph .go) :=
  .seq fun ms => seqStep_stop (s := s.setSchedule ms) huw (selected_stop.mpr ⟨hp, hu⟩)

theorem leads_goStop (hp : s.ph = .stop) (hu : s.us = .go) :
    Leads [.seq] s (respond .ok s.okCount (s.proceed .stop)) :=
  .seq fun ms => seqStep_goStop (s := s.setSchedule ms) huw
    (selected_go.mpr ⟨by simp [hp], hu⟩) hp

theorem leads_wait (hp : s.ph.awaited) (hu : s.us = .wait) (hi : ctrlInt s.ctrl = true) :
    Leads [.seq] s (s.setPc s.ph .stat) :=
  .seq fun ms => seqStep_wait (s := s.setSchedule ms) huw (selected_wait.mpr ⟨hp, hu⟩) hi

theorem leads_status (hp : s.ph.awaited) (hu : s.us = .stat) (hi : ctrlInt s.ctrl = true) :
    Leads [.seq] s ((s.setStLatch (statusOf s.sr)).setPc s.ph s.ph.afterStatus) :=
  .seq fun ms => seqStep_status (s := s.setSchedule ms) huw (selected_status.mpr ⟨hp, hu⟩) hi

theorem leads_clrStart (hp : s.ph.isStart = true) (hu : s.us = .clr) :
    Leads [.seq] s ((s.setField .start false).setPc s.ph .chk) :=
  .seq fun ms => seqStep_clrStart (s := s.setSchedule ms) huw (selected_clrStart.mpr ⟨hp, hu⟩)

theorem leads_check_pass (hp : s.ph.awaited) (hu : s.us = .chk) {r : Result}
    (he : s.expected = some s.stLatch) (hr : s.errorKind = some r) {q : Phase}
    (hq : nextPhase s.op s.ph = some q) : Leads [.seq] s (s.enterPhase q) :=
  .seq fun ms => seqStep_check_pass (s := s.setSchedule ms) huw
    (selected_check.mpr ⟨hp, hu⟩) he hr hq

theorem leads_check_byte (hp : s.ph = .rx) (hu : s.us = .chk) {r : Result}
    (he : s.expected = some s.stLatch) (hr : s.errorKind = some r) :
    Leads [.seq] s (s.setPc s.ph .data) :=
  .seq fun ms => seqStep_check_byte (s := s.setSchedule ms) huw
    (selected_check.mpr ⟨by simp [hp, Phase.awaited], hu⟩) he hr hp

theorem leads_check_abort (hp : s.ph.awaited) (hu : s.us = .chk) {e : Status} {r : Result}
    (he : s.expected = some e) (hr : s.errorKind = some r) (hbus : r.isBusError = true)
    (hne : s.stLatch ≠ e) : Leads [.seq] s (raiseError r s) :=
  .seq fun ms => seqStep_check_abort (s := s.setSchedule ms) huw (selected_check.mpr ⟨hp, hu⟩) he hr
    hbus hne

theorem leads_rbyte (hp : s.ph = .rx) (hu : s.us = .data) (hi : ctrlInt s.ctrl = true)
    (hidx : s.idx.toNat < Config.maxBurst) : Leads [.seq] s s.storeByte.nextByte :=
  .seq fun ms => by
    rw [seqStep_rbyte (s := s.setSchedule ms) huw (selected_rbyte.mpr ⟨hp, hu⟩) hi hidx]
    unfold State.nextByte
    have hlast : (s.setSchedule ms).storeByte.isLast = s.storeByte.isLast := rfl
    rw [hlast]
    split <;> rfl

end Rows

end Sys2Proof.Machine
end

section
/-! PROOFS. Whole phases: the launch, the answer and the check of each kind of phase, and the stop
(spec/42_protocol_steps.md R151 to R158). -/

namespace Sys2Proof.Machine

/-! ## Up to the launch -/

/-- A start phase at `CFG` after `U_START` and `U_GO` (R151, R152). -/
def State.startLaunched (s : State) : State :=
  (((s.setField .start true).setPc s.ph .go).proceed .start).setPc s.ph .wait

/-- A transmit phase at `CFG` after `U_WBYTE` of `b` and `U_GO` (R153). -/
def State.txLaunched (b : Byte) (s : State) : State :=
  (((s.setDr b).setPc s.ph .go).proceed .tx).setPc s.ph .wait

/-- `RX` at `CFG` after `U_ACK` and `U_GO` (R154). -/
def State.rxLaunched (s : State) : State :=
  (((s.setField .ack s.ackLevel).setPc s.ph .go).proceed .rx).setPc s.ph .wait

theorem kind_of_isStart {p : Phase} (h : p.isStart = true) : p.kind = some .start := by
  revert h
  cases p <;> decide

theorem awaited_of_kind_tx {p : Phase} (h : p.kind = some .tx) : p.awaited := by
  unfold Phase.awaited
  revert h
  cases p <;> decide

theorem awaited_rx : Phase.rx.awaited := by
  unfold Phase.awaited
  decide

theorem leads_startLaunched {s : State} (huw : s.uw = none) (hp : s.ph.isStart = true)
    (hu : s.us = .cfg) : Leads [.seq, .seq] s s.startLaunched :=
  .cons (leads_start huw hp hu)
    (leads_go (s := (s.setField .start true).setPc s.ph .go) huw (kind_of_isStart hp)
      (awaited_of_isStart hp) rfl)

theorem leads_txLaunched {s : State} (huw : s.uw = none) {b : Byte} (hp : s.ph.kind = some .tx)
    (hu : s.us = .cfg) (hb : s.phaseByte = some b) : Leads [.seq, .seq] s (s.txLaunched b) :=
  .cons (leads_wbyte huw hp hu hb)
    (leads_go (s := (s.setDr b).setPc s.ph .go) huw hp (awaited_of_kind_tx hp) rfl)

theorem leads_rxLaunched {s : State} (huw : s.uw = none) (hp : s.ph = .rx) (hu : s.us = .cfg) :
    Leads [.seq, .seq] s s.rxLaunched :=
  .cons (leads_ack huw hp hu)
    (leads_go (s := (s.setField .ack s.ackLevel).setPc s.ph .go) huw
      (by rw [State.setPc_ph, hp]; rfl) (by rw [State.setPc_ph, hp]; exact awaited_rx) rfl)

/-- The launched start keeps its request (R64, R151). -/
theorem startLaunched_start (s : State) : ctrlField .start s.startLaunched.ctrl = true := by
  rw [State.startLaunched, State.setPc_ctrl, ctrlField_proceed, State.setPc_ctrl,
    ctrlField_setField, if_pos rfl]

theorem startLaunched_ack (s : State) :
    ctrlField .ack s.startLaunched.ctrl = ctrlField .ack s.ctrl := by
  rw [State.startLaunched, State.setPc_ctrl, ctrlField_proceed, State.setPc_ctrl,
    ctrlField_setField, if_neg (by decide)]

theorem startLaunched_trace (s : State) : s.startLaunched.trace = s.trace ++ [.start] := rfl

/-- The launch of a receive carries the level of the byte at `IDX` (R154, R240). -/
theorem rxLaunched_level (s : State) : ctrlField .ack s.rxLaunched.ctrl = s.ackLevel := by
  rw [State.rxLaunched, State.setPc_ctrl, ctrlField_proceed, State.setPc_ctrl, ctrlField_setField,
    if_pos rfl]

theorem rxLaunched_trace (s : State) : s.rxLaunched.trace = s.trace ++ [.rx s.ackLevel] := by
  rw [← rxLaunched_level]
  rfl

/-! ## From the launch to the check -/

/-- `c` is `s` at the micro-step `u`, the answer `(st, d)` to what was in flight given and its
status read. -/
structure Latched (u : MicroStep) (st : Status) (d : Byte) (s c : State) : Prop where
  frame : c = { s with
    us := u, stLatch := st, inflight := none, ctrl := c.ctrl, sr := c.sr, dr := c.dr
    busOwned := c.busOwned, slave := c.slave, draws := c.draws }
  int : ctrlInt c.ctrl = true
  field : ∀ f, f ≠ .start → ctrlField f c.ctrl = ctrlField f s.ctrl
  data : ∀ a, s.inflight = some (.rx a) → c.dr = d

/-- The answer, `U_WAIT` and `U_STATUS`. -/
theorem leads_latched {s : State} (huw : s.uw = none) (hp : s.ph.awaited) (hu : s.us = .wait)
    {p : InFlight} (hf : s.inflight = some p) (hb : p = .start → s.stopBusy = false) (st : Status)
    (d : Byte) : ∃ c, Leads [.complete st d, .seq, .seq] s c ∧
      Latched s.ph.afterStatus st d s c := by
  obtain ⟨x, hx⟩ : ∃ x, x = completeWith p st d s := ⟨_, rfl⟩
  have hcomplete : Leads [.complete st d] s x := hx ▸ leads_complete hf hb st d
  rw [completeWith_eq] at hx
  have hph : x.ph = s.ph := by rw [hx]
  have huwx : x.uw = none := by rw [hx]; exact huw
  have hint : ctrlInt x.ctrl = true := by rw [hx]; exact ctrlInt_setInt _
  have hst : statusOf x.sr = st := by rw [hx]; exact statusOf_packSr _ _
  have hwait : Leads [.seq] x (x.setPc x.ph .stat) :=
    leads_wait huwx (hph ▸ hp) (by rw [hx]; exact hu) hint
  have hstat := leads_status (s := x.setPc x.ph .stat) huwx (hph ▸ hp) rfl hint
  rw [State.setPc_sr, hst] at hstat
  refine ⟨_, .cons hcomplete (.cons hwait hstat), ?_, hint, fun f _ => ?_, fun a ha => ?_⟩
  · rw [hx]
    rfl
  · rw [hx]
    exact ctrlField_setInt _ _
  · cases hf.symm.trans ha
    rw [hx]
    rfl

/-- SEQ's moves from a completion to `CHK`. -/
def movesToCheck (p : Phase) : List Move := List.replicate (if p.isStart then 3 else 2) .seq

/-- The answer and SEQ's micro-steps up to the check; a start phase drops its request (R151). -/
theorem leads_atCheck {s : State} (huw : s.uw = none) (hp : s.ph.awaited) (hu : s.us = .wait)
    {p : InFlight} (hf : s.inflight = some p) (hb : p = .start → s.stopBusy = false) (st : Status)
    (d : Byte) : ∃ c, Leads (.complete st d :: movesToCheck s.ph) s c ∧ Latched .chk st d s c := by
  obtain ⟨c, hc, hl⟩ := leads_latched huw hp hu hf hb st d
  unfold movesToCheck
  by_cases hstart : s.ph.isStart = true
  · rw [Phase.afterStatus, if_pos hstart] at hl
    have hclr := leads_clrStart (s := c) (by rw [hl.frame]; exact huw)
      (by rw [hl.frame]; exact hstart) (by rw [hl.frame])
    rw [if_pos hstart]
    refine ⟨_, hc.append hclr, ?_, (ctrlInt_setField _ _ c).trans hl.int, fun f hne => ?_, hl.data⟩
    · rw [hl.frame]
      rfl
    · rw [State.setPc_ctrl, ctrlField_setField, if_neg hne]
      exact hl.field f hne
  · rw [Phase.afterStatus, if_neg hstart] at hl
    rw [if_neg hstart]
    exact ⟨c, hc, hl⟩

/-! ## A start behind an unfinished stop -/

/-- `x` is `s` waiting for its start, launched behind a stop that has ended since (R75, R245). -/
structure StartFreed (s x : State) : Prop where
  frame : x = { s with
    us := .wait, inflight := some .start, stopBusy := false, trace := s.trace ++ [.start]
    ctrl := x.ctrl, busOwned := x.busOwned, slave := x.slave, draws := x.draws }
  stop : ctrlField .stop x.ctrl = false
  ack : ctrlField .ack x.ctrl = ctrlField .ack s.ctrl

theorem leads_startFreed {s : State} (huw : s.uw = none) (hp : s.ph.isStart = true)
    (hu : s.us = .cfg) (hb : s.stopBusy = true) (early : List (Status × Byte)) :
    ∃ x, Leads (.seq :: .seq :: waitForStop early) s x ∧ StartFreed s x := by
  have hwait : Leads (waitForStop early) s.startLaunched (eStopDone s.startLaunched) :=
    leads_waitForStop (s := s.startLaunched) rfl hb early
  refine ⟨_, (leads_startLaunched huw hp hu).append hwait, ?_, ?_, ?_⟩ <;>
    rw [eStopDone_eq (s := s.startLaunched) hb]
  · rfl
  · exact ctrlField_stop_clearStop _
  · exact (ctrlField_clearStop_other (by decide) _).trans (startLaunched_ack s)

/-! ## The phases in which the check passes -/

/-- What a transaction carries from phase to phase. -/
structure Carried (s t : State) : Prop where
  uw : t.uw = s.uw
  op : t.op = s.op
  sla : t.sla = s.sla
  reg : t.reg = s.reg
  val : t.val = s.val
  len : t.len = s.len
  stopBusy : t.stopBusy = s.stopBusy

theorem Carried.trans {s t u : State} (h : Carried s t) (h' : Carried t u) : Carried s u :=
  ⟨h'.uw.trans h.uw, h'.op.trans h.op, h'.sla.trans h.sla, h'.reg.trans h.reg, h'.val.trans h.val,
    h'.len.trans h.len, h'.stopBusy.trans h.stopBusy⟩

/-- `t` is `s` in the phase `q`, the primitives `es` launched since. -/
structure Passed (q : Phase) (es : List TraceEntry) (s t : State) : Prop where
  carried : Carried s t
  ph : t.ph = q
  us : t.us = .cfg
  idx : t.idx = if s.ph = .slar then 0#8 else s.idx
  buf : t.buf = s.buf
  trace : t.trace = s.trace ++ es
  ack : ctrlField .ack t.ctrl = ctrlField .ack s.ctrl

/-- Every phase that R177 has a row for has one error kind (R158). -/
theorem exists_errorKind_of_nextPhase {s : State} {q : Phase} (h : nextPhase s.op s.ph = some q) :
    ∃ r, s.errorKind = some r := by
  unfold State.errorKind
  cases hp : s.ph with
  | start | slaw | rega | value | rstart | slar => exact ⟨_, rfl⟩
  | idle | rx | stop | init => simp [hp, nextPhase] at h

theorem awaited_of_nextPhase {o : Op} {p q : Phase} (h : nextPhase o p = some q) : p.awaited := by
  unfold Phase.awaited
  revert h
  cases p <;> simp [nextPhase]

/-- From the launch on, with the expected answer. -/
theorem leads_pass {s : State} (huw : s.uw = none) (hu : s.us = .wait) {p : InFlight}
    (hf : s.inflight = some p) (hb : p = .start → s.stopBusy = false) {e : Status}
    (he : s.expected = some e) {q : Phase} (hq : nextPhase s.op s.ph = some q) (d : Byte) :
    ∃ t, Leads (.complete e d :: (movesToCheck s.ph ++ [.seq])) s t ∧ Passed q [] s t := by
  have hp : s.ph.awaited := awaited_of_nextPhase hq
  obtain ⟨r, hr⟩ := exists_errorKind_of_nextPhase hq
  obtain ⟨c, hc, hl⟩ := leads_atCheck huw hp hu hf hb e d
  have hcheck : Leads [.seq] c (c.enterPhase q) := by
    apply leads_check_pass (r := r) <;> rw [hl.frame]
    · exact huw
    · exact hp
    · exact he
    · exact hr
    · exact hq
  refine ⟨_, hc.append hcheck, ?_⟩
  have hack : ctrlField .ack c.ctrl = ctrlField .ack s.ctrl := hl.field .ack (by decide)
  exact {
    carried := by constructor <;> rw [hl.frame] <;> rfl
    ph := rfl
    us := rfl
    idx := by rw [hl.frame]; rfl
    buf := by rw [hl.frame]; rfl
    trace := by rw [hl.frame, List.append_nil]; rfl
    ack := hack }

/-- From the launch on, with any other answer: the abort (R157). -/
theorem leads_abort {s : State} (huw : s.uw = none) (hp : s.ph.awaited) (hu : s.us = .wait)
    {p : InFlight} (hf : s.inflight = some p) (hb : p = .start → s.stopBusy = false) {e st : Status}
    (he : s.expected = some e) {k : Result} (hk : s.errorKind = some k)
    (hbus : k.isBusError = true) (hne : st ≠ e) (d : Byte) :
    ∃ c, Leads (.complete st d :: (movesToCheck s.ph ++ [.seq])) s (raiseError k c) ∧
      Latched .chk st d s c := by
  obtain ⟨c, hc, hl⟩ := leads_atCheck huw hp hu hf hb st d
  have hcheck : Leads [.seq] c (raiseError k c) := by
    apply leads_check_abort (e := e) (hbus := hbus) <;> rw [hl.frame]
    · exact huw
    · exact hp
    · exact he
    · exact hk
    · exact hne
  exact ⟨c, hc.append hcheck, hl⟩

/-- A phase passed from its launch is passed from its `CFG`. -/
theorem Passed.of_launched {q : Phase} {es : List TraceEntry} {s l t : State} (h : Passed q [] l t)
    (hc : Carried s l) (hph : l.ph = s.ph) (hidx : l.idx = s.idx) (hbuf : l.buf = s.buf)
    (htrace : l.trace = s.trace ++ es) (hack : ctrlField .ack l.ctrl = ctrlField .ack s.ctrl) :
    Passed q es s t where
  carried := hc.trans h.carried
  ph := h.ph
  us := h.us
  idx := by rw [h.idx, hph, hidx]
  buf := h.buf.trans hbuf
  trace := by rw [h.trace, List.append_nil, htrace]
  ack := h.ack.trans hack

theorem movesToCheck_start {p : Phase} (h : p.isStart = true) :
    movesToCheck p ++ [.seq] = List.replicate 4 .seq := by
  rw [movesToCheck, if_pos h]
  rfl

theorem movesToCheck_other {p : Phase} (h : p.isStart = false) :
    movesToCheck p ++ [.seq] = List.replicate 3 .seq := by
  rw [movesToCheck, h]
  rfl

/-- A transmit phase with the expected answer (R153). -/
theorem leads_txMoves {s : State} (huw : s.uw = none) (hk : s.ph.kind = some .tx)
    (hu : s.us = .cfg) {b : Byte} (hb : s.phaseByte = some b) {e : Status}
    (he : s.expected = some e) {q : Phase} (hq : nextPhase s.op s.ph = some q) :
    ∃ t, Leads (txMoves e) s t ∧ Passed q [.tx b] s t := by
  have hstart : s.ph.isStart = false := by
    revert hk
    cases s.ph <;> decide
  obtain ⟨t, ht, hpass⟩ := leads_pass (s := s.txLaunched b) (p := .tx b) huw rfl rfl nofun he hq 0#8
  rw [movesToCheck_other (by exact hstart)] at ht
  refine ⟨t, (leads_txLaunched huw hk hu hb).append ht, hpass.of_launched
    ⟨rfl, rfl, rfl, rfl, rfl, rfl, rfl⟩ rfl rfl rfl rfl ?_⟩
  exact ctrlField_proceed .ack .tx _

/-- A start phase with the expected answer and no stop unfinished (R151, R152). -/
theorem leads_startMoves {s : State} (huw : s.uw = none) (hp : s.ph.isStart = true)
    (hu : s.us = .cfg) (hb : s.stopBusy = false) {e : Status} (he : s.expected = some e)
    {q : Phase} (hq : nextPhase s.op s.ph = some q) :
    ∃ t, Leads (startMoves e) s t ∧ Passed q [.start] s t := by
  obtain ⟨t, ht, hpass⟩ := leads_pass (s := s.startLaunched) (p := .start) huw rfl rfl (fun _ => hb)
    he hq 0#8
  rw [movesToCheck_start (by exact hp)] at ht
  refine ⟨t, (leads_startLaunched huw hp hu).append ht, hpass.of_launched
    ⟨rfl, rfl, rfl, rfl, rfl, rfl, rfl⟩ rfl rfl rfl (startLaunched_trace s) (startLaunched_ack s)⟩

/-- `t` is `s` with one byte received: it stands at `IDX`, and SEQ is at `CFG` of the stop or of the
next byte (R154). -/
structure Received (d : Byte) (s t : State) : Prop where
  carried : Carried s t
  us : t.us = .cfg
  buf : t.buf = s.buf.write s.idx.toNat d
  trace : t.trace = s.trace ++ [.rx s.ackLevel]
  ack : ctrlField .ack t.ctrl = s.ackLevel
  last : s.isLast = true → t.ph = .stop
  more : s.isLast = false → t.ph = .rx ∧ t.idx = s.idx + 1#8

/-- Sequencing after `U_RBYTE` writes the pair and `IDX` alone (R150). -/
theorem nextByte_frame (s : State) :
    s.nextByte = { s with ph := s.nextByte.ph, us := .cfg, idx := s.nextByte.idx } := by
  unfold State.nextByte
  split <;> rfl

theorem nextByte_last {s : State} (h : s.isLast = true) : s.nextByte.ph = .stop := by
  rw [State.nextByte, if_pos h]
  rfl

theorem nextByte_more {s : State} (h : s.isLast = false) :
    s.nextByte.ph = .rx ∧ s.nextByte.idx = s.idx + 1#8 := by
  rw [State.nextByte, h]
  exact ⟨rfl, rfl⟩

/-- `c` is `s` at `DATA`, the received byte `d` in `DR` (R154). -/
structure AtByte (d : Byte) (s c : State) : Prop where
  frame : c = { s with
    us := .data, dr := d, trace := s.trace ++ [.rx s.ackLevel], stLatch := c.stLatch, ctrl := c.ctrl
    sr := c.sr, inflight := c.inflight, busOwned := c.busOwned, slave := c.slave, draws := c.draws }
  int : ctrlInt c.ctrl = true
  ack : ctrlField .ack c.ctrl = s.ackLevel

/-- A receive phase with the expected answer, up to the byte (R154). -/
theorem leads_atByte {s : State} (huw : s.uw = none) (hp : s.ph = .rx) (hu : s.us = .cfg)
    (hop : s.op = .readReg ∨ s.op = .readBurst) {e : Status} (he : s.expected = some e) (d : Byte) :
    ∃ c, Leads (.seq :: .seq :: .complete e d :: List.replicate 3 .seq) s c ∧ AtByte d s c := by
  have hph : s.rxLaunched.ph = .rx := hp
  obtain ⟨c, hc, hl⟩ := leads_atCheck (s := s.rxLaunched) huw (hph ▸ awaited_rx) rfl rfl nofun e d
  rw [hph] at hc
  have hcph : c.ph = .rx := by rw [hl.frame]; exact hp
  have hcop : opFitsPhase c.op c.ph = true := by
    have : c.op = s.op := by rw [hl.frame]; rfl
    obtain ho | ho := hop <;> rw [hcph, this, ho] <;> rfl
  obtain ⟨r, hr, -⟩ := exists_errorKind (hcph ▸ awaited_rx) hcop
  have hcheck : Leads [.seq] c (c.setPc c.ph .data) :=
    leads_check_byte (by rw [hl.frame]; exact huw) hcph (by rw [hl.frame])
      (by rw [hl.frame]; exact he) hr
  have hdr : c.dr = d := hl.data _ rfl
  refine ⟨_, (leads_rxLaunched huw hp hu).append (hc.append hcheck), ?_, hl.int,
    (hl.field .ack (by decide)).trans (rxLaunched_level s)⟩
  rw [← rxLaunched_trace, ← hdr, hl.frame]
  rfl

theorem AtByte.received {d : Byte} {s c : State} (h : AtByte d s c) :
    Received d s c.storeByte.nextByte := by
  have hlast : c.storeByte.isLast = s.isLast := by rw [h.frame]; rfl
  refine ⟨?_, ?_, ?_, ?_, ?_, fun hl => nextByte_last (hlast.trans hl), fun hl => ?_⟩
  · rw [nextByte_frame, h.frame]
    exact ⟨rfl, rfl, rfl, rfl, rfl, rfl, rfl⟩
  · rw [nextByte_frame]
  · rw [nextByte_frame, h.frame]
    rfl
  · rw [nextByte_frame, h.frame]
    rfl
  · rw [nextByte_frame]
    exact h.ack
  · have hidx : s.idx = c.storeByte.idx := by rw [h.frame]; rfl
    rw [hidx]
    exact nextByte_more (hlast.trans hl)

/-- A receive phase with the expected answer (R154). -/
theorem leads_rxMoves {s : State} (huw : s.uw = none) (hp : s.ph = .rx) (hu : s.us = .cfg)
    (hop : s.op = .readReg ∨ s.op = .readBurst) (hidx : s.idx.toNat < Config.maxBurst) {e : Status}
    (he : s.expected = some e) (d : Byte) : ∃ t, Leads (rxMoves e d) s t ∧ Received d s t := by
  obtain ⟨c, hc, hbyte⟩ := leads_atByte huw hp hu hop he d
  have hstore : Leads [.seq] c c.storeByte.nextByte :=
    leads_rbyte (by rw [hbyte.frame]; exact huw) (by rw [hbyte.frame]; exact hp)
      (by rw [hbyte.frame]) hbyte.int (by rw [hbyte.frame]; exact hidx)
  exact ⟨_, hc.append hstore, hbyte.received⟩

/-! ## The stop -/

/-- The end of a transaction: the stop is launched and the command answered (R155). -/
structure Stopped (s t : State) : Prop where
  response : t.resultValid = true ∧ t.result = .ok ∧ t.count = s.okCount
  ph : t.ph = .idle
  trace : t.trace = s.trace ++ [.stop]
  stopBusy : t.stopBusy = true
  buf : t.buf = s.buf
  idx : t.idx = s.idx
  len : t.len = s.len
  ack : ctrlField .ack t.ctrl = ctrlField .ack s.ctrl

theorem leads_stopMoves {s : State} (huw : s.uw = none) (hp : s.ph = .stop) (hu : s.us = .cfg) :
    ∃ t, Leads stopMoves s t ∧ Stopped s t := by
  have hgo := leads_goStop (s := (s.setField .stop true).setPc s.ph .go) huw hp rfl
  refine ⟨_, .cons (leads_stop huw hp hu) hgo, ⟨rfl, rfl, rfl⟩, rfl, rfl, rfl, rfl, rfl, rfl, ?_⟩
  rw [respond_eq, ctrlField_proceed, State.setPc_ctrl, ctrlField_setField, if_neg (by decide)]

end Sys2Proof.Machine
end

section
/-! PROOFS. Commands accepted while the stop of the one before is unfinished
(spec/20_memory.md R74, R75; spec/70_reset_and_hazards.md R245). -/

namespace Sys2Proof.Machine

/-! ## The acceptance of a transaction -/

/-- A command word read back field by field (R92). -/
theorem packCmd_fields (op : BitVec 3) (a r x : Byte) :
    cmdOp (packCmd op a r x) = op ∧ cmdRsv (packCmd op a r x) = 0#5 ∧
      cmdA (packCmd op a r x) = a ∧ cmdR (packCmd op a r x) = r ∧ cmdX (packCmd op a r x) = x := by
  refine ⟨?_, ?_, ?_, ?_, ?_⟩ <;> refine BitVec.eq_of_getLsbD_eq fun i hi => ?_ <;>
    simp only [cmdOp, cmdRsv, cmdA, cmdR, cmdX, packCmd, BitVec.getLsbD_extractLsb',
      BitVec.getLsbD_append] <;>
    interval_cases i <;> simp

/-- SEQ's registers after the acceptance of a transaction that launches a start (R170). -/
def State.opened (i : Instr) (s : State) : State :=
  match i with
  | .writeReg a r v =>
    (((s.setOp .writeReg).setTarget (slaOperand a) r).setVal v).setPc .start .cfg
  | .readReg a r => (((s.setOp .readReg).setTarget (slaOperand a) r).setLen 1#8).setPc .start .cfg
  | .readBurst a r n =>
    (((s.setOp .readBurst).setTarget (slaOperand a) r).setLen n).setPc .start .cfg
  | _ => s

/-- The words of the transactions decode to them (R94). -/
theorem decodeCmd_of_launchesStart {i : Instr} {w : CmdWord} (hi : launchesStart i = true)
    (hw : encode i = .cmd w) : decodeCmd w = .ok i := by
  cases i with
  | writeReg a r v =>
    cases hw
    obtain ⟨hop, hrsv, ha, hr, hx⟩ := packCmd_fields 1#3 a r v
    have haddr : validSlaveAddr a = true := hi
    simp [decodeCmd, hop, hrsv, ha, hr, hx, cmdChecked, haddr]
  | readReg a r =>
    cases hw
    obtain ⟨hop, hrsv, ha, hr, hx⟩ := packCmd_fields 2#3 a r 0#8
    have haddr : validSlaveAddr a = true := hi
    simp [decodeCmd, hop, hrsv, ha, hr, hx, cmdChecked, haddr]
  | readBurst a r n =>
    cases hw
    obtain ⟨hop, hrsv, ha, hr, hx⟩ := packCmd_fields 3#3 a r n
    have haddr : validSlaveAddr a = true := (Bool.and_eq_true_iff.mp hi).1
    simp [decodeCmd, hop, hrsv, ha, hr, hx, cmdChecked, haddr]
  | _ => cases hi

/-- Initialised and idle, SEQ accepts a transaction that launches a start (R108, R109, R170). -/
theorem exec_launchesStart {i : Instr} {s : State} (hi : launchesStart i = true) (hp : s.ph = .idle)
    (hinit : s.initialized = true) : exec i s = .next (s.opened i) := by
  have hidle : s.busy = false := State.busy_eq_false_iff.mpr hp
  have hgate {a : Byte} (ha : validSlaveAddr a = true) : transactionGate a s = none := by
    simp [transactionGate, initializedGate, ha, hinit]
  cases i with
  | writeReg a r v =>
    rw [exec, execWriteReg, hgate hi, accept_idle hidle]
    rfl
  | readReg a r =>
    rw [exec, execReadReg, hgate hi, accept_idle hidle]
    rfl
  | readBurst a r n =>
    obtain ⟨ha, hn⟩ := Bool.and_eq_true_iff.mp hi
    rw [exec, execReadBurst, hgate ha, accept_idle hidle]
    simp only [if_neg (bne_iff_ne.mp hn)]
    rfl
  | _ => cases hi

/-- What the acceptance leaves for the start phase (R170). -/
theorem opened_start {i : Instr} (hi : launchesStart i = true) (s : State) :
    (s.opened i).ph = .start ∧ (s.opened i).us = .cfg ∧ (s.opened i).uw = s.uw ∧
      (s.opened i).stopBusy = s.stopBusy ∧ (s.opened i).ctrl = s.ctrl ∧
      (s.opened i).trace = s.trace ∧ (s.opened i).idx = s.idx ∧ (s.opened i).buf = s.buf := by
  cases i with
  | writeReg | readReg | readBurst => exact ⟨rfl, rfl, rfl, rfl, rfl, rfl, rfl, rfl⟩
  | _ => cases hi

theorem leads_opened {i : Instr} {s : State} (hi : launchesStart i = true) (hs : Offers i s) :
    Leads [.seq] s ((s.setCmd none).opened i) := by
  obtain ⟨huw, hp, hinit, w, hw, hc⟩ := hs
  have hd : decodeCmd w = .ok i := decodeCmd_of_launchesStart hi hw
  refine .seq fun ms => ?_
  rw [seqStep_command (s := s.setSchedule ms) huw hp hc hd, 
    exec_launchesStart (s := (s.setSchedule ms).setCmd none) hi hp hinit]
  cases i with
  | writeReg | readReg | readBurst => rfl
  | _ => cases hi

/-! ## Where the end of the stop falls does not matter -/

/-- Clearing the stop request commutes with raising the start request and with the launch (R64). -/
theorem clearStop_store (c : Byte) :
    clearStop (storeCtrl c (fieldWriteByte .start true c)) =
        storeCtrl (clearStop c) (fieldWriteByte .start true (clearStop c)) ∧
      clearStop (storeCtrl c (goByte (c &&& ctrlUsedMask))) =
        storeCtrl (clearStop c) (goByte (clearStop c &&& ctrlUsedMask)) := by
  revert c
  decide

theorem eStopDone_opened {i : Instr} {s : State} (hi : launchesStart i = true)
    (hb : s.stopBusy = true) :
    eStopDone ((s.setCmd none).opened i) = ((eStopDone s).setCmd none).opened i := by
  have hbo : ((s.setCmd none).opened i).stopBusy = true := (opened_start hi _).2.2.2.1.trans hb
  rw [eStopDone_eq hbo, eStopDone_eq hb]
  cases i with
  | writeReg | readReg | readBurst => rfl
  | _ => cases hi

theorem eStopDone_setField {s : State} (hb : s.stopBusy = true) :
    eStopDone ((s.setField .start true).setPc s.ph .go) =
      ((eStopDone s).setField .start true).setPc (eStopDone s).ph .go := by
  rw [eStopDone_eq (s := (s.setField .start true).setPc s.ph .go) hb, eStopDone_eq hb]
  apply State.ext <;> simp [State.setField, (clearStop_store s.ctrl).1]

theorem eStopDone_proceed {s : State} (hb : s.stopBusy = true) :
    eStopDone ((s.proceed .start).setPc s.ph .wait) =
      ((eStopDone s).proceed .start).setPc (eStopDone s).ph .wait := by
  rw [eStopDone_eq (s := (s.proceed .start).setPc s.ph .wait) hb, eStopDone_eq hb]
  apply State.ext <;> simp [State.proceed, launch, (clearStop_store s.ctrl).2]

/-- The end of a stop at any of the places among three moves of SEQ that commute with it. -/
theorem leads_stopDone_anywhere {s a b c : State} (ha : Leads [.seq] s a) (hb : Leads [.seq] a b)
    (hc : Leads [.seq] b c) (ha' : Leads [.seq] (eStopDone s) (eStopDone a))
    (hb' : Leads [.seq] (eStopDone a) (eStopDone b))
    (hc' : Leads [.seq] (eStopDone b) (eStopDone c))
    (hs : s.stopBusy = true) (hab : a.stopBusy = true) (hbb : b.stopBusy = true)
    (hcb : c.stopBusy = true) {k : Nat} (hk : k ≤ 3) :
    Leads (List.replicate k .seq ++ .stopDone :: List.replicate (3 - k) .seq) s (eStopDone c) := by
  interval_cases k
  · exact .cons (leads_stopDone hs) (.cons ha' (.cons hb' hc'))
  · exact .cons ha (.cons (leads_stopDone hab) (.cons hb' hc'))
  · exact .cons ha (.cons hb (.cons (leads_stopDone hbb) hc'))
  · exact .cons ha (.cons hb (.cons hc (leads_stopDone hcb)))

/-- The end of a stop leaves SEQ's registers alone (R74). -/
theorem eStopDone_frame (s : State) : eStopDone s = { s with
    ctrl := (eStopDone s).ctrl, stopBusy := (eStopDone s).stopBusy
    busOwned := (eStopDone s).busOwned, slave := (eStopDone s).slave
    draws := (eStopDone s).draws } := by
  cases hb : s.stopBusy with
  | false => rw [eStopDone_disabled hb]
  | true => rw [eStopDone_eq hb]

/-- `U_START` and `U_GO` launch the same start with the stop ended before them (R75). -/
theorem leads_eStopDone_startLaunched {a : State} (huw : a.uw = none) (hp : a.ph.isStart = true)
    (hu : a.us = .cfg) (hb : a.stopBusy = true) :
    ∃ b, b.stopBusy = true ∧ Leads [.seq] a b ∧ Leads [.seq] b a.startLaunched ∧
      Leads [.seq] (eStopDone a) (eStopDone b) ∧
      Leads [.seq] (eStopDone b) (eStopDone a.startLaunched) := by
  refine ⟨(a.setField .start true).setPc a.ph .go, hb, leads_start huw hp hu,
    leads_go (s := (a.setField .start true).setPc a.ph .go) huw (kind_of_isStart hp)
      (awaited_of_isStart hp) rfl, ?_, ?_⟩
  · rw [eStopDone_setField hb]
    apply leads_start <;> rw [eStopDone_frame]
    · exact huw
    · exact hp
    · exact hu
  · have hlaunched : eStopDone a.startLaunched = _ :=
      eStopDone_proceed (s := (a.setField .start true).setPc a.ph .go) hb
    rw [hlaunched]
    apply leads_go <;> rw [eStopDone_frame]
    · exact huw
    · exact kind_of_isStart hp
    · exact awaited_of_isStart hp
    · rfl

/-- The end of a stop leaves what HOST offers to an idle block. -/
theorem offers_eStopDone {i : Instr} {s : State} (h : Offers i s) : Offers i (eStopDone s) := by
  rw [eStopDone_frame]
  exact h

/-- The acceptance, `U_START` and `U_GO`, with the end of the earlier stop at any place. -/
theorem leads_openedStart {i : Instr} {s : State} (hi : launchesStart i = true) (hs : Offers i s)
    (hb : s.stopBusy = true) {k : Nat} (hk : k ≤ 3) :
    Leads (List.replicate k .seq ++ .stopDone :: List.replicate (3 - k) .seq) s
      (eStopDone ((s.setCmd none).opened i).startLaunched) := by
  obtain ⟨hph, hus, huw, hbusy, -⟩ := opened_start hi (s.setCmd none)
  have ha' := leads_opened hi (offers_eStopDone hs)
  rw [← eStopDone_opened hi hb] at ha'
  obtain ⟨b, hbb, hab, hbc, hab', hbc'⟩ := leads_eStopDone_startLaunched (huw.trans hs.1)
    (by rw [hph]; rfl) hus (hbusy.trans hb)
  exact leads_stopDone_anywhere (leads_opened hi hs) hab hbc ha' hab' hbc' hb (hbusy.trans hb) hbb
    (hbusy.trans hb) hk

/-! ## A mismatch of the start that was held back -/

/-- R158's error kind of a start phase, by value. -/
theorem exists_errorKind_start {s : State} (h : s.ph.isStart = true) :
    ∃ k, s.errorKind = some k ∧ k.isBusError = true ∧
      (s.ph = .start → k = .startError ∧ k.code = 1#4) ∧
      (s.ph = .rstart → k = .repeatedStartError ∧ k.code = 2#4) := by
  have hp : s.ph = .start ∨ s.ph = .rstart := by
    revert h
    cases s.ph <;> decide
  unfold State.errorKind
  obtain hp | hp := hp <;> rw [hp]
  · exact ⟨_, rfl, rfl, fun _ => ⟨rfl, rfl⟩, nofun⟩
  · exact ⟨_, rfl, rfl, nofun, fun _ => ⟨rfl, rfl⟩⟩

/-- An abort answers its kind with no bytes (R157). -/
theorem response_raiseError (k : Result) (s : State) :
    (raiseError k s).response = some ⟨k, 0#8, []⟩ := rfl

/-- An abort leaves the controller's registers, `BUF` and `TRACE` alone (R157). -/
theorem raiseError_kept (k : Result) (s : State) :
    (raiseError k s).trace = s.trace ∧ (raiseError k s).buf = s.buf ∧
      (raiseError k s).stLatch = s.stLatch ∧ (raiseError k s).stopBusy = s.stopBusy ∧
      (raiseError k s).ctrl = s.ctrl := by
  rw [raiseError_eq]
  exact ⟨rfl, rfl, rfl, rfl, rfl⟩

end Sys2Proof.Machine

open Sys2Proof Sys2Proof.Machine

/-- Settles O58: the end of a stop commutes with the acceptance, with `U_START` and with `U_GO`, so
all four places lead to the state with the stop ended last. -/
theorem unfinishedStopOnlyDelaysFirstStart : Obligations.UnfinishedStopOnlyDelaysFirstStart := by
  intro s i k ms hi hs hb hk
  obtain ⟨hph, -, -, hbusy, -, htrace, -⟩ := opened_start hi (s.setCmd none)
  have hbl : ((s.setCmd none).opened i).startLaunched.stopBusy = true := hbusy.trans hb
  have hlen : (List.replicate k Move.seq ++
      Move.stopDone :: List.replicate (3 - k) .seq).length = 4 := by
    simp
    omega
  have hrun := leads_openedStart hi hs hb hk ms
  rw [hlen] at hrun
  refine ⟨_, hrun, leads_openedStart hi hs hb (Nat.zero_le 3) ms, ?_⟩
  rw [eStopDone_eq hbl]
  refine ⟨rfl, rfl, rfl, ctrlField_stop_clearStop _, ?_, ?_, hph, rfl, rfl⟩
  · rw [State.setSchedule_ctrl]
    exact (ctrlField_clearStop_other (by decide) _).trans (startLaunched_start _)
  · exact (startLaunched_trace _).trans (by rw [htrace, State.setCmd_trace])

/-- Settles O60: the start is launched, freed by the end of the stop, and answered; then the check
aborts. -/
theorem startMismatchAfterUnfinishedStopAborts :
    Obligations.StartMismatchAfterUnfinishedStopAborts := by
  intro s e st early ms huw hp hu he hb hne hs
  obtain ⟨x, hx, hfree⟩ := leads_startFreed huw hp hu hb early
  obtain ⟨k, hk, hbus, hstart, hrstart⟩ := exists_errorKind_start hp
  have hxp : x.ph = s.ph := by rw [hfree.frame]
  have hxb : x.stopBusy = false := by rw [hfree.frame]
  obtain ⟨c, hc, hl⟩ := leads_abort (s := x) (p := .start) (by rw [hfree.frame]; exact huw)
    (hxp ▸ awaited_of_isStart hp) (by rw [hfree.frame]) (by rw [hfree.frame]) (fun _ => hxb)
    (by rw [hfree.frame]; exact he) (by rw [hfree.frame]; exact hk) hbus hne 0#8
  rw [movesToCheck_start (hxp ▸ hp)] at hc
  have hrun := (hx.append hc).runFor (ms := ms) hs
  have hstop : ctrlField .stop c.ctrl = false := (hl.field .stop (by decide)).trans hfree.stop
  have hctrace : c.trace = s.trace ++ [.start] := by rw [hl.frame, hfree.frame]
  have hcbuf : c.buf = s.buf := by rw [hl.frame, hfree.frame]
  have hclatch : c.stLatch = st := by rw [hl.frame]
  have hcbusy : c.stopBusy = false := by rw [hl.frame, hxb]
  obtain ⟨htrace, hbuf, hlatch, hbusy, hctrl⟩ := raiseError_kept k c
  have hlen : (.seq :: .seq :: waitForStop early ++
      .complete st 0#8 :: List.replicate 4 Move.seq).length = early.length + 8 := by
    simp [waitForStop, completionMoves]
  rw [hlen] at hrun
  refine ⟨(raiseError k c).setSchedule ms, k, hrun, response_raiseError k c, hstart, hrstart, rfl,
    rfl, htrace.trans hctrace, hbuf.trans hcbuf, hlatch.trans hclatch, hbusy.trans hcbusy, ?_, rfl⟩
  rw [State.setSchedule_ctrl, hctrl]
  exact hstop

end

section
/-! PROOFS. Whole transactions after the launch of their opening start (spec/43_transactions.md R172
to R174), and so back to back (spec/20_memory.md R75). -/

namespace Sys2Proof.Machine

/-! ## The received bytes in the buffer -/

/-- The bytes `ds` written one after another from the index `i` on. -/
def Memory.writeAll (m : Memory) (i : Nat) : List Byte → Memory
  | [] => m
  | d :: ds => (m.write i d).writeAll (i + 1) ds

theorem Memory.read_writeAll_outside {m : Memory} {i j : Nat} {ds : List Byte}
    (h : j < i ∨ i + ds.length ≤ j) : (m.writeAll i ds).read j = m.read j := by
  induction ds generalizing m i with
  | nil => rfl
  | cons d ds ih =>
    rw [List.length_cons] at h
    rw [Memory.writeAll, ih (by omega), Memory.read_write_other (by omega)]

theorem Memory.read_writeAll_inside {m : Memory} {i k : Nat} {ds : List Byte} (hm : m.wf = true)
    (hk : k < ds.length) : (m.writeAll i ds).read (i + k) = ds[k] := by
  induction ds generalizing m i k with
  | nil => cases hk
  | cons d ds ih =>
    rw [Memory.writeAll]
    cases k with
    | zero => rw [Memory.read_writeAll_outside (by omega)]; exact Memory.read_write_same hm i d
    | succ k =>
      have h := ih (i := i + 1) (Memory.wf_write hm i d) (Nat.lt_of_succ_lt_succ hk)
      rwa [Nat.add_right_comm, Nat.add_assoc] at h

/-- The bytes received from index 0 on are the bytes of the response (R103). -/
theorem Memory.map_read_writeAll {m : Memory} (hm : m.wf = true) (ds : List Byte) :
    (List.range ds.length).map (m.writeAll 0 ds).read = ds := by
  refine List.ext_getElem (by simp) fun k _ hk => ?_
  rw [List.getElem_map, List.getElem_range]
  simpa using Memory.read_writeAll_inside (i := 0) hm hk

/-! ## The receive phases of a read -/

/-- A byte below `LEN` is the last one exactly at `LEN - 1` (R154). -/
theorem isLast_iff {s : State} (h : s.idx.toNat < s.len.toNat) :
    s.isLast = true ↔ s.idx.toNat + 1 = s.len.toNat := by
  rw [State.isLast, beq_iff_eq]
  bv_omega

/-- `t` is `s` at the stop, the bytes `ds` received since. -/
structure ReceivedAll (ds : List Byte) (s t : State) : Prop where
  carried : Carried s t
  ph : t.ph = .stop
  us : t.us = .cfg
  buf : t.buf = s.buf.writeAll s.idx.toNat ds
  trace : t.trace = s.trace ++ receiveTrace ds.length
  ack : ctrlField .ack t.ctrl = false

/-- The receive phases of the bytes that are left, all but the last acknowledged (R159, R174). -/
theorem leads_receiveMoves {s : State} {ds : List Byte} (huw : s.uw = none) (hp : s.ph = .rx)
    (hu : s.us = .cfg) (hop : s.op = .readReg ∨ s.op = .readBurst) (hds : ds ≠ [])
    (hlen : s.idx.toNat + ds.length = s.len.toNat) :
    ∃ t, Leads (receiveMoves ds) s t ∧ ReceivedAll ds s t := by
  have hmax : s.len.toNat < 256 := s.len.isLt
  induction ds generalizing s with
  | nil => exact absurd rfl hds
  | cons d ds ih =>
    rw [List.length_cons] at hlen
    have hlt : s.idx.toNat < s.len.toNat := by omega
    have hidx : s.idx.toNat < Config.maxBurst := by simp only [Config.maxBurst]; omega
    cases ds with
    | nil =>
      have hlast : s.isLast = true := (isLast_iff hlt).mpr hlen
      obtain ⟨t, ht, hr⟩ := leads_rxMoves (e := Config.stReadNackOk) huw hp hu hop hidx
        (by simp [State.expected, hp, hlast]) d
      have hlevel : s.ackLevel = false := by simp [State.ackLevel, hlast]
      have htrace := hr.trace
      rw [hlevel] at htrace
      exact ⟨t, ht, hr.carried, hr.last hlast, hr.us, hr.buf, htrace, hr.ack.trans hlevel⟩
    | cons d' ds =>
      have hlast : s.isLast = false := by
        rw [← Bool.not_eq_true, isLast_iff hlt]
        simp only [List.length_cons] at hlen
        omega
      obtain ⟨t, ht, hr⟩ := leads_rxMoves (e := Config.stReadAckOk) huw hp hu hop hidx
        (by simp [State.expected, hp, hlast]) d
      have hlevel : s.ackLevel = true := by simp [State.ackLevel, hlast]
      obtain ⟨hph, hnext⟩ := hr.more hlast
      have hsucc : t.idx.toNat = s.idx.toNat + 1 := by rw [hnext]; bv_omega
      obtain ⟨v, hv, ha⟩ := ih (s := t) (hr.carried.uw.trans huw) hph hr.us (by rwa [hr.carried.op])
        nofun (by rw [hsucc, hr.carried.len]; omega) (by rwa [hr.carried.len])
      refine ⟨v, ht.append hv, hr.carried.trans ha.carried, ha.ph, ha.us, ?_, ?_, ha.ack⟩
      · rw [ha.buf, hr.buf, hsucc]
        rfl
      · rw [ha.trace, hr.trace, hlevel]
        simp [receiveTrace, List.replicate_succ]

/-! ## Transactions from the launch of the opening start -/

/-- SEQ waits for the start of the command `o`, and nothing holds it back. -/
structure Opening (s : State) : Prop where
  uw : s.uw = none
  ph : s.ph = .start
  us : s.us = .wait
  inflight : s.inflight = some .start
  stopBusy : s.stopBusy = false

/-- Phases one after another, before `SLAR`. -/
theorem Passed.trans {q q' : Phase} {es es' : List TraceEntry} {s t u : State}
    (h : Passed q es s t) (h' : Passed q' es' t u) (hq : q ≠ .slar) :
    Passed q' (es ++ es') s u where
  carried := h.carried.trans h'.carried
  ph := h'.ph
  us := h'.us
  idx := by rw [h'.idx, if_neg (h.ph ▸ hq), h.idx]
  buf := h'.buf.trans h.buf
  trace := by rw [h'.trace, h.trace, List.append_assoc]
  ack := h'.ack.trans h.ack

/-- The opening start and the device address, whatever the command (R172 to R174). -/
theorem leads_toRega {s : State} (h : Opening s) :
    ∃ t, Leads (afterLaunch (startMoves Config.stStartOk) ++ txMoves Config.stSlawAck) s t ∧
      Passed .rega [.tx (slaByte s.sla Config.dirWrite)] s t := by
  obtain ⟨t, ht, hpt⟩ := leads_pass (e := Config.stStartOk) (q := .slaw) h.uw h.us h.inflight
    (fun _ => h.stopBusy) (by simp [State.expected, h.ph]) (by simp [nextPhase, h.ph]) 0#8
  rw [movesToCheck_start (by rw [h.ph]; rfl)] at ht
  obtain ⟨u, hu, hpu⟩ := leads_txMoves (s := t) (b := slaByte t.sla Config.dirWrite)
    (e := Config.stSlawAck) (q := .rega) (hpt.carried.uw.trans h.uw) (by rw [hpt.ph]; rfl) hpt.us
    (by simp [State.phaseByte, hpt.ph]) (by simp [State.expected, hpt.ph])
    (by simp [nextPhase, hpt.ph])
  rw [hpt.carried.sla] at hpu
  exact ⟨u, ht.append hu, hpt.trans hpu (by decide)⟩

/-- A successful write, up to its stop (R172). -/
theorem leads_write {s : State} (h : Opening s) (hop : s.op = .writeReg) :
    ∃ v t, Leads (afterLaunch writeMoves) s t ∧ Stopped v t ∧
      Passed .stop [.tx (slaByte s.sla Config.dirWrite), .tx s.reg, .tx s.val] s v := by
  obtain ⟨a, ha, hpa⟩ := leads_toRega h
  have haop : a.op = .writeReg := hpa.carried.op.trans hop
  obtain ⟨b, hb, hpb⟩ := leads_txMoves (s := a) (b := a.reg) (e := Config.stWriteAck) (q := .value)
    (hpa.carried.uw.trans h.uw) (by rw [hpa.ph]; rfl) hpa.us
    (by simp [State.phaseByte, hpa.ph, regAddrByte, haop]) (by simp [State.expected, hpa.ph])
    (by simp [nextPhase, hpa.ph, haop])
  rw [hpa.carried.reg] at hpb
  have hpab := hpa.trans hpb (by decide)
  have hbop : b.op = .writeReg := hpab.carried.op.trans hop
  obtain ⟨v, hv, hpv⟩ := leads_txMoves (s := b) (b := b.val) (e := Config.stWriteAck) (q := .stop)
    (hpab.carried.uw.trans h.uw) (by rw [hpb.ph]; rfl) hpb.us
    (by simp [State.phaseByte, hpb.ph]) (by simp [State.expected, hpb.ph])
    (by simp [nextPhase, hpb.ph, hbop])
  rw [hpab.carried.val] at hpv
  have hall := hpab.trans hpv (by decide)
  obtain ⟨t, ht, hst⟩ := leads_stopMoves (hall.carried.uw.trans h.uw) hall.ph hall.us
  exact ⟨v, t, ((ha.append hb).append hv).append ht, hst, hall⟩

/-- `t` is `s` at its first byte, the opening of a read launched since (R173, R174). -/
structure AtFirstByte (s t : State) : Prop where
  carried : Carried s t
  ph : t.ph = .rx
  us : t.us = .cfg
  idx : t.idx = 0#8
  buf : t.buf = s.buf
  trace : t.trace = s.trace ++ [.tx (slaByte s.sla Config.dirWrite), .tx (regAddrByte s.op s.reg),
    .start, .tx (slaByte s.sla Config.dirRead)]

/-- The opening of a read with the expected answers (R173, R174). -/
theorem leads_readOpening {s : State} (h : Opening s) (hop : s.op = .readReg ∨ s.op = .readBurst) :
    ∃ t, Leads (afterLaunch readOpening) s t ∧ AtFirstByte s t := by
  have hnext {p q : Phase} (hq : nextPhase .readReg p = some q)
      (hq' : nextPhase .readBurst p = some q) {a : State} (ha : a.op = s.op) (hp : a.ph = p) :
      nextPhase a.op a.ph = some q := by
    rw [ha, hp]
    obtain ho | ho := hop <;> rw [ho] <;> assumption
  obtain ⟨a, ha, hpa⟩ := leads_toRega h
  obtain ⟨b, hb, hpb⟩ := leads_txMoves (s := a) (b := regAddrByte a.op a.reg)
    (e := Config.stWriteAck) (q := .rstart)
    (hpa.carried.uw.trans h.uw) (by rw [hpa.ph]; rfl) hpa.us
    (by simp [State.phaseByte, hpa.ph]) (by simp [State.expected, hpa.ph])
    (hnext rfl rfl hpa.carried.op hpa.ph)
  rw [hpa.carried.op, hpa.carried.reg] at hpb
  have hpab := hpa.trans hpb (by decide)
  obtain ⟨c, hc, hpc⟩ := leads_startMoves (s := b) (e := Config.stRstartOk) (q := .slar)
    (hpab.carried.uw.trans h.uw) (by rw [hpb.ph]; rfl) hpb.us
    (hpab.carried.stopBusy.trans h.stopBusy) (by simp [State.expected, hpb.ph])
    (hnext rfl rfl hpab.carried.op hpb.ph)
  have hpac := hpab.trans hpc (by decide)
  obtain ⟨t, ht, hpt⟩ := leads_txMoves (s := c) (b := slaByte c.sla Config.dirRead)
    (e := Config.stSlarAck) (q := .rx) (hpac.carried.uw.trans h.uw) (by rw [hpc.ph]; rfl) hpc.us
    (by simp [State.phaseByte, hpc.ph]) (by simp [State.expected, hpc.ph])
    (hnext rfl rfl hpac.carried.op hpc.ph)
  refine ⟨t, ((ha.append hb).append hc).append ht, hpac.carried.trans hpt.carried, hpt.ph, hpt.us,
    ?_, hpt.buf.trans hpac.buf, ?_⟩
  · rw [hpt.idx, if_pos hpc.ph]
  · rw [hpt.trace, hpac.trace, hpac.carried.sla]
    simp

/-- A successful read of the bytes `ds` ended in `t` (R173, R174). -/
structure ReadDone (ds : List Byte) (s t : State) : Prop where
  response : t.response = some ⟨.ok, s.len, ds⟩
  ph : t.ph = .idle
  trace : t.trace = s.trace ++ ([.tx (slaByte s.sla Config.dirWrite), .tx (regAddrByte s.op s.reg),
    .start, .tx (slaByte s.sla Config.dirRead)] ++ receiveTrace ds.length ++ [.stop])
  buf : t.buf = s.buf.writeAll 0 ds
  ack : ctrlField .ack t.ctrl = false
  stopBusy : t.stopBusy = true

/-- A successful read of any length (R173, R174). -/
theorem leads_read {s : State} (h : Opening s) (hop : s.op = .readReg ∨ s.op = .readBurst)
    {ds : List Byte} (hds : ds ≠ []) (hlen : s.len.toNat = ds.length) (hwf : s.buf.wf = true) :
    ∃ t, Leads (afterLaunch (readMoves ds)) s t ∧ ReadDone ds s t := by
  obtain ⟨a, ha, hfirst⟩ := leads_readOpening h hop
  obtain ⟨b, hb, hall⟩ := leads_receiveMoves (ds := ds) (hfirst.carried.uw.trans h.uw) hfirst.ph
    hfirst.us (by rwa [hfirst.carried.op]) hds (by simp [hfirst.idx, hfirst.carried.len, hlen])
  have hcarried : Carried s b := hfirst.carried.trans hall.carried
  obtain ⟨t, ht, hst⟩ := leads_stopMoves (hcarried.uw.trans h.uw) hall.ph hall.us
  have hbuf : t.buf = s.buf.writeAll 0 ds := by
    rw [hst.buf, hall.buf, hfirst.idx, hfirst.buf]
    rfl
  have hcount : t.count = s.len := by
    rw [hst.response.2.2, okCount_eq, hcarried.op, if_pos hop, hcarried.len]
  refine ⟨t, (ha.append hb).append ht, ?_, hst.ph, ?_, hbuf, hst.ack.trans hall.ack, hst.stopBusy⟩
  · rw [State.response, hst.response.1, hst.response.2.1, hcount, hbuf, hlen,
      Memory.map_read_writeAll hwf]
    rfl
  · rw [hst.trace, hall.trace, hfirst.trace]
    simp

/-! ## Back to back -/

/-- A transaction accepted behind an unfinished stop waits for its start once the stop has ended. -/
theorem leads_backToBack {i : Instr} {s : State} (hi : launchesStart i = true) (hs : Offers i s)
    (hb : s.stopBusy = true) (early : List (Status × Byte)) :
    ∃ x, Leads (backToBack early) s x ∧ Opening x ∧ StartFreed ((s.setCmd none).opened i) x := by
  obtain ⟨hph, hus, huw, hbusy, -⟩ := opened_start hi (s.setCmd none)
  obtain ⟨x, hx, hfree⟩ := leads_startFreed (huw.trans hs.1) (by rw [hph]; rfl) hus
    (hbusy.trans hb) early
  refine ⟨x, (leads_opened hi hs).append hx, ?_, hfree⟩
  constructor <;> rw [hfree.frame]
  · exact huw.trans hs.1
  · exact hph

theorem validSlaveAddr_of_lt {a : Byte} (ha : a.toNat < 128) : validSlaveAddr a = true := by
  simpa [validSlaveAddr] using ha

/-- A write behind an unfinished stop (R172). -/
theorem leads_writeBackToBack {s : State} {a r v : Byte} (ha : a.toNat < 128)
    (hs : Offers (.writeReg a r v) s) (hb : s.stopBusy = true) (early : List (Status × Byte)) :
    ∃ t, Leads (backToBack early ++ afterLaunch writeMoves) s t ∧
      t.response = some ⟨.ok, 0#8, []⟩ ∧ t.ph = .idle ∧
      t.trace = s.trace ++ [.start, .tx (slaByte (a.setWidth 7) 0#1), .tx r, .tx v, .stop] ∧
      t.buf = s.buf ∧ t.idx = s.idx ∧ t.len = s.len ∧
      ctrlField .ack t.ctrl = ctrlField .ack s.ctrl ∧ t.stopBusy = true := by
  obtain ⟨x, hx, hopen, hfree⟩ :=
    leads_backToBack (i := .writeReg a r v) (validSlaveAddr_of_lt ha) hs hb early
  have hop : x.op = .writeReg := by rw [hfree.frame]; rfl
  have htarget : x.sla = a.setWidth 7 ∧ x.reg = r ∧ x.val = v := by
    rw [hfree.frame]
    exact ⟨rfl, rfl, rfl⟩
  have hkept : x.trace = s.trace ++ [.start] ∧ x.buf = s.buf ∧ x.idx = s.idx ∧ x.len = s.len := by
    rw [hfree.frame]
    exact ⟨rfl, rfl, rfl, rfl⟩
  obtain ⟨hsla, hreg, hval⟩ := htarget
  obtain ⟨htrace, hbuf, hidx, hlen⟩ := hkept
  obtain ⟨w, t, ht, hst, hp⟩ := leads_write hopen hop
  obtain ⟨hvalid, hok, hcount⟩ := hst.response
  rw [okCount_eq, hp.carried.op, hop, if_neg (by decide)] at hcount
  refine ⟨t, hx.append ht, ?_, hst.ph, ?_, ?_, ?_, ?_, ?_, hst.stopBusy⟩
  · rw [State.response, hvalid, hok, hcount]
    rfl
  · rw [hst.trace, hp.trace, htrace, hsla, hreg, hval]
    simp [Config.dirWrite]
  · rw [hst.buf, hp.buf, hbuf]
  · rw [hst.idx, hp.idx, hopen.ph, if_neg (by decide), hidx]
  · rw [hst.len, hp.carried.len, hlen]
  · rw [hst.ack, hp.ack, hfree.ack]
    rfl

/-- A read behind an unfinished stop (R173, R174). -/
theorem leads_readBackToBack {i : Instr} {s : State} (hi : launchesStart i = true)
    (hs : Offers i s) (hb : s.stopBusy = true) (early : List (Status × Byte))
    (hop : (s.opened i).op = .readReg ∨ (s.opened i).op = .readBurst) {ds : List Byte}
    (hds : ds ≠ []) (hlen : (s.opened i).len.toNat = ds.length) (hwf : s.buf.wf = true) :
    ∃ t, Leads (backToBack early ++ afterLaunch (readMoves ds)) s t ∧
      t.response = some ⟨.ok, (s.opened i).len, ds⟩ ∧ t.ph = .idle ∧
      t.trace = s.trace ++ readTrace (s.opened i).sla
        (regAddrByte (s.opened i).op (s.opened i).reg) ds.length ∧
      t.buf = s.buf.writeAll 0 ds ∧ ctrlField .ack t.ctrl = false ∧ t.stopBusy = true := by
  obtain ⟨x, hx, hopen, hfree⟩ := leads_backToBack hi hs hb early
  obtain ⟨-, -, -, -, -, htrace, -, hbuf⟩ := opened_start hi (s.setCmd none)
  have hregs : x.op = (s.opened i).op ∧ x.len = (s.opened i).len ∧ x.sla = (s.opened i).sla ∧
      x.reg = (s.opened i).reg := by
    rw [hfree.frame]
    cases i with
    | writeReg | readReg | readBurst => exact ⟨rfl, rfl, rfl, rfl⟩
    | _ => cases hi
  obtain ⟨hxop, hxlen, hxsla, hxreg⟩ := hregs
  have hxbuf : x.buf = s.buf := by rw [hfree.frame]; exact hbuf
  have hxtrace : x.trace = s.trace ++ [.start] := by rw [hfree.frame]; simp [htrace]
  obtain ⟨t, ht, hdone⟩ := leads_read hopen (by rwa [hxop]) hds (by rwa [hxlen]) (by rwa [hxbuf])
  refine ⟨t, hx.append ht, ?_, hdone.ph, ?_, ?_, hdone.ack, hdone.stopBusy⟩
  · rw [hdone.response, hxlen]
  · rw [hdone.trace, hxtrace, hxop, hxsla, hxreg]
    simp [readTrace]
  · rw [hdone.buf, hxbuf]

end Sys2Proof.Machine

open Sys2Proof Sys2Proof.Machine

/-- Settles O59: behind the unfinished stop the start is launched and freed; from there on the
phases are those of any write and of any read. -/
theorem backToBackTransactionsSucceed : Obligations.BackToBackTransactionsSucceed := by
  intro s a r v ds early ms ha hb
  have haddr : validSlaveAddr a = true := validSlaveAddr_of_lt ha
  refine ⟨fun hs hm => ?_, fun d hs hwf hm => ?_, fun hs h1 h255 hwf hm => ?_⟩
  · obtain ⟨t, ht, hresp, hph, htrace, hbuf, hidx, hlen, hack, hbusy⟩ :=
      leads_writeBackToBack ha hs hb early
    exact ⟨t.setSchedule ms, ht.runFor hm, hresp, hph, htrace, hbuf, hidx, hlen, hack, hbusy, rfl⟩
  · obtain ⟨t, ht, hresp, hph, htrace, -, hack, hbusy⟩ :=
      leads_readBackToBack (i := .readReg a r) haddr hs hb early (.inl rfl) (ds := [d])
        nofun rfl hwf
    exact ⟨t.setSchedule ms, ht.runFor hm, hresp, hph, htrace, hack, hbusy, rfl⟩
  · have hne : ds ≠ [] := List.length_pos_iff.mp h1
    have hlen : (BitVec.ofNat 8 ds.length).toNat = ds.length := by
      rw [BitVec.toNat_ofNat]
      exact Nat.mod_eq_of_lt (by omega)
    have hzero : BitVec.ofNat 8 ds.length ≠ 0#8 := by
      intro hz
      rw [hz] at hlen
      exact absurd hlen.symm (Nat.ne_of_gt h1)
    obtain ⟨t, ht, hresp, hph, htrace, hbuf, hack, hbusy⟩ :=
      leads_readBackToBack (i := .readBurst a r (BitVec.ofNat 8 ds.length))
        (by simp [launchesStart, haddr, hzero]) hs hb early (.inr rfl) hne hlen hwf
    refine ⟨t.setSchedule ms, ht.runFor hm, hresp, hph, htrace, fun j hj => ?_, hack, hbusy, rfl⟩
    rw [State.setSchedule_buf, hbuf]
    exact Memory.read_writeAll_outside (.inr (by omega))

end

section
/-! PROOFS. The two word formats (spec/30_encoding.md R92 to R98, R106 to R111): a word decodes to
exactly the instruction whose word it is, and the rows of the opcode table select the same words. -/

namespace Sys2Proof

/-! ## A word is its fields (R92, R97) -/

theorem cmdFields_append (w : CmdWord) : cmdOp w ++ cmdRsv w ++ cmdA w ++ cmdR w ++ cmdX w = w := by
  simp only [cmdOp, cmdRsv, cmdA, cmdR, cmdX,
    BitVec.extractLsb'_append_extractLsb'_eq_extractLsb', BitVec.extractLsb'_eq_self]

theorem uopFields_append (w : MicroWord) : uopCode w ++ uopAux w ++ uopImm w = w := by
  simp only [uopCode, uopAux, uopImm,
    BitVec.extractLsb'_append_extractLsb'_eq_extractLsb', BitVec.extractLsb'_eq_self]

theorem packCmd_of_fields {w : CmdWord} {op : BitVec 3} {a r x : Byte} (hop : cmdOp w = op)
    (hrsv : cmdRsv w = 0#5) (ha : cmdA w = a) (hr : cmdR w = r) (hx : cmdX w = x) :
    packCmd op a r x = w := by
  rw [packCmd, ← hop, ← hrsv, ← ha, ← hr, ← hx, cmdFields_append]

theorem packUop_of_fields {w : MicroWord} {code aux : BitVec 4} {imm : Byte}
    (hcode : uopCode w = code) (haux : uopAux w = aux) (himm : uopImm w = imm) :
    packUop code aux imm = w := by
  rw [packUop, ← hcode, ← haux, ← himm, uopFields_append]

section Fields

variable (op : BitVec 3) (a r x : Byte) (code aux : BitVec 4) (imm : Byte)

@[simp] theorem cmdOp_packCmd : cmdOp (packCmd op a r x) = op :=
  (Machine.packCmd_fields op a r x).1
@[simp] theorem cmdRsv_packCmd : cmdRsv (packCmd op a r x) = 0#5 :=
  (Machine.packCmd_fields op a r x).2.1
@[simp] theorem cmdA_packCmd : cmdA (packCmd op a r x) = a :=
  (Machine.packCmd_fields op a r x).2.2.1
@[simp] theorem cmdR_packCmd : cmdR (packCmd op a r x) = r :=
  (Machine.packCmd_fields op a r x).2.2.2.1
@[simp] theorem cmdX_packCmd : cmdX (packCmd op a r x) = x :=
  (Machine.packCmd_fields op a r x).2.2.2.2

@[simp] theorem uopImm_packUop : uopImm (packUop code aux imm) = imm :=
  BitVec.extractLsb'_append_eq_right
@[simp] theorem uopAux_packUop : uopAux (packUop code aux imm) = aux := by
  rw [uopAux, packUop, BitVec.extractLsb'_append_eq_of_le (by decide)]
  exact BitVec.extractLsb'_append_eq_right
@[simp] theorem uopCode_packUop : uopCode (packUop code aux imm) = code := by
  rw [uopCode, packUop, BitVec.extractLsb'_append_eq_of_le (by decide)]
  exact BitVec.extractLsb'_append_eq_left

end Fields

/-! ## The instructions that are read from a word -/

/-- The instructions the decoder answers: the well-formed ones, and `U_CHECK` with any `err`
(notes/assumptions/11.md). -/
def Instr.decodable : Instr → Bool
  | .uCheck _ _ => true
  | i => i.wf

theorem Instr.decodable_of_wf {i : Instr} (h : i.wf = true) : i.decodable = true := by
  cases i with
  | uCheck k e => rfl
  | _ => exact h

/-- The operand of `U_ACK` as its `aux` field holds it (R98). -/
theorem ackAux_fields (e : Bool) :
    (0#3 ++ BitVec.ofBool e).extractLsb' 1 3 = 0#3 ∧ (0#3 ++ BitVec.ofBool e).getLsbD 0 = e := by
  revert e
  decide

theorem ackAux_of_fields {aux : BitVec 4} (h : aux.extractLsb' 1 3 = 0#3) :
    aux = 0#3 ++ BitVec.ofBool (aux.getLsbD 0) := by
  revert h aux
  decide

/-- The expected status as the `imm` field of `U_CHECK` holds it (R98). -/
theorem checkImm_fields (s : Status) :
    (0#3 ++ s).extractLsb' 5 3 = 0#3 ∧ (0#3 ++ s).extractLsb' 0 5 = s :=
  ⟨BitVec.extractLsb'_append_eq_left, BitVec.extractLsb'_append_eq_right⟩

theorem checkImm_of_fields {imm : Byte} (h : imm.extractLsb' 5 3 = 0#3) :
    imm = 0#3 ++ imm.extractLsb' 0 5 :=
  h ▸ (BitVec.extractLsb'_append_extractLsb' (w := 3) (len := 5) (x := imm)).symm

theorem cmdChecked_eq_ok {z a : Bool} {i j : Instr} :
    cmdChecked z a i = .ok j ↔ z = true ∧ a = true ∧ i = j := by
  cases z <;> cases a <;> simp [cmdChecked]

theorem uopChecked_eq_ok {z : Bool} {i j : Instr} :
    uopChecked z i = .ok j ↔ z = true ∧ i = j := by
  cases z <;> simp [uopChecked]

/-- The word of an instruction decodes to it (R94, R98). -/
theorem decode_encode {i : Instr} (h : i.decodable = true) : decode (encode i) = .ok i := by
  cases i with
  | init | forceStop => simp [decode, encode, decodeCmd, cmdChecked_eq_ok]
  | writeReg a | readReg a | readBurst a =>
    have ha : validSlaveAddr a = true := h
    simp [decode, encode, decodeCmd, cmdChecked_eq_ok, ha]
  | uAck e =>
    obtain ⟨hzero, he⟩ := ackAux_fields e
    simp only [decode, encode, decodeUop, uopCode_packUop, uopAux_packUop, uopImm_packUop, hzero, he]
    rfl
  | uCheck k s =>
    obtain ⟨hzero, hs⟩ := checkImm_fields s
    simp [decode, encode, decodeUop, uopChecked_eq_ok, hzero, hs]
  | _ => simp [decode, encode, decodeUop, uopChecked_eq_ok]

theorem eq_ofNat_of_toNat {n k : Nat} {x : BitVec n} (h : x.toNat = k) : x = BitVec.ofNat n k := by
  rw [← h, BitVec.ofNat_toNat, BitVec.setWidth_eq]

/-- A command word that decodes is the word of its instruction (R94, R107, R108). -/
theorem encode_of_decodeCmd {w : CmdWord} {i : Instr} (h : decodeCmd w = .ok i) :
    i.decodable = true ∧ encode i = .cmd w := by
  unfold decodeCmd at h
  split at h
  case h_6 => cases h
  all_goals
    next hcode =>
      have hop := eq_ofNat_of_toNat hcode
      obtain ⟨hzero, haddr, rfl⟩ := cmdChecked_eq_ok.mp h
      simp only [Bool.and_eq_true, beq_iff_eq] at hzero
      refine ⟨haddr, congrArg EncodedWord.cmd (packCmd_of_fields hop ?_ ?_ ?_ ?_)⟩ <;> simp only [hzero]

/-- A micro-word that decodes is the word of its instruction (R98, R111; notes/assumptions/11.md). -/
theorem encode_of_decodeUop {w : MicroWord} {i : Instr} (h : decodeUop w = .ok i) :
    i.decodable = true ∧ encode i = .uop w := by
  unfold decodeUop at h
  split at h
  case h_12 => cases h
  case h_7 hcode =>
    simp only [uopChecked_eq_ok, Bool.and_eq_true, beq_iff_eq] at h
    obtain ⟨⟨haux, himm⟩, rfl⟩ := h
    exact ⟨rfl, congrArg EncodedWord.uop
      (packUop_of_fields (eq_ofNat_of_toNat hcode) (ackAux_of_fields haux) himm)⟩
  case h_11 hcode =>
    simp only [uopChecked_eq_ok, beq_iff_eq] at h
    obtain ⟨himm, rfl⟩ := h
    exact ⟨rfl, congrArg EncodedWord.uop
      (packUop_of_fields (eq_ofNat_of_toNat hcode) rfl (checkImm_of_fields himm))⟩
  all_goals
    next hcode =>
      have hop := eq_ofNat_of_toNat hcode
      simp only [uopChecked_eq_ok, Bool.and_eq_true, beq_iff_eq] at h
      obtain ⟨hzero, rfl⟩ := h
      refine ⟨rfl, congrArg EncodedWord.uop (packUop_of_fields hop ?_ ?_)⟩ <;> simp only [hzero]

/-- A word decodes to exactly the decodable instruction whose word it is. -/
theorem decode_eq_ok_iff {w : EncodedWord} {i : Instr} :
    decode w = .ok i ↔ i.decodable = true ∧ encode i = w := by
  constructor
  · intro h
    cases w with
    | cmd w => exact encode_of_decodeCmd h
    | uop w => exact encode_of_decodeUop h
  · rintro ⟨hi, rfl⟩
    exact decode_encode hi

/-! ## The rows of the opcode table (R94) -/

/-- A word with a mask, field by field (R92). -/
theorem cmdFields_of_and {w m p : CmdWord} (h : w &&& m = p) :
    cmdOp w &&& cmdOp m = cmdOp p ∧ cmdRsv w &&& cmdRsv m = cmdRsv p ∧
      cmdA w &&& cmdA m = cmdA p ∧ cmdR w &&& cmdR m = cmdR p ∧ cmdX w &&& cmdX m = cmdX p := by
  subst h
  simp only [cmdOp, cmdRsv, cmdA, cmdR, cmdX, BitVec.extractLsb'_and, and_self]

/-- A micro-word with a mask, field by field (R97). -/
theorem uopFields_of_and {w m p : MicroWord} (h : w &&& m = p) :
    uopCode w &&& uopCode m = uopCode p ∧ uopAux w &&& uopAux m = uopAux p ∧
      uopImm w &&& uopImm m = uopImm p := by
  subst h
  simp only [uopCode, uopAux, uopImm, BitVec.extractLsb'_and, and_self]

/-- A field that the mask covers. -/
theorem eq_of_and_full {n : Nat} {x m p : BitVec n} (h : x &&& m = p)
    (hm : m = BitVec.allOnes n := by decide) : x = p := by
  rwa [hm, BitVec.and_allOnes] at h

theorem validSlaveAddr_of_and {a : Byte} (h : a &&& 0x80#8 = 0#8) : validSlaveAddr a = true := by
  revert a
  decide

theorem ackAux_of_and {aux : BitVec 4} (h : aux &&& 0xE#4 = 0#4) : aux.extractLsb' 1 3 = 0#3 := by
  revert aux
  decide

theorem checkImm_of_and {imm : Byte} (h : imm &&& 0xE0#8 = 0#8) : imm.extractLsb' 5 3 = 0#3 := by
  revert imm
  decide

/-- The words that select the row are words of instructions of its mnemonic: the converse of
`Laws.RowSelects.Statement`. -/
def RowReads (r : Row) : Prop :=
  ∀ w, r.selects w = true → ∃ i : Instr, i.decodable = true ∧ i.mnemonic = r.mnemonic ∧ encode i = w

theorem RowReads.cmd {m : String} {mask pat : Nat}
    (h : ∀ w : CmdWord, w &&& BitVec.ofNat 32 mask = BitVec.ofNat 32 pat →
      ∃ i : Instr, i.decodable = true ∧ i.mnemonic = m ∧ encode i = .cmd w) :
    RowReads ⟨m, 32, mask, pat⟩ := by
  intro w hw
  cases w with
  | cmd w => exact h w (by simpa [Row.selects] using hw)
  | uop w => cases hw

theorem RowReads.uop {m : String} {mask pat : Nat}
    (h : ∀ w : MicroWord, w &&& BitVec.ofNat 16 mask = BitVec.ofNat 16 pat →
      ∃ i : Instr, i.decodable = true ∧ i.mnemonic = m ∧ encode i = .uop w) :
    RowReads ⟨m, 16, mask, pat⟩ := by
  intro w hw
  cases w with
  | cmd w => cases hw
  | uop w => exact h w (by simpa [Row.selects] using hw)

/-- A micro-op without operands has one word (R98). -/
theorem RowReads.plainUop {i : Instr} {pat : Nat} (hi : i.decodable = true)
    (he : encode i = .uop (BitVec.ofNat 16 pat)) : RowReads ⟨i.mnemonic, 16, 0xFFFF, pat⟩ :=
  .uop fun w h => ⟨i, hi, rfl, by rw [he, eq_of_and_full h]⟩

theorem rowReads_init : RowReads ⟨"INIT", 32, 0xFFFFFF00, 0x00000000⟩ := .cmd fun w h => by
  obtain ⟨hop, hrsv, ha, hr, -⟩ := cmdFields_of_and h
  exact ⟨.init (cmdX w), rfl, rfl, congrArg EncodedWord.cmd (packCmd_of_fields (eq_of_and_full hop)
    (eq_of_and_full hrsv) (eq_of_and_full ha) (eq_of_and_full hr) rfl)⟩

theorem rowReads_writeReg : RowReads ⟨"WRITE_REG", 32, 0xFF800000, 0x20000000⟩ := .cmd fun w h => by
  obtain ⟨hop, hrsv, ha, -, -⟩ := cmdFields_of_and h
  exact ⟨.writeReg (cmdA w) (cmdR w) (cmdX w), validSlaveAddr_of_and ha, rfl,
    congrArg EncodedWord.cmd
      (packCmd_of_fields (eq_of_and_full hop) (eq_of_and_full hrsv) rfl rfl rfl)⟩

theorem rowReads_readReg : RowReads ⟨"READ_REG", 32, 0xFF8000FF, 0x40000000⟩ := .cmd fun w h => by
  obtain ⟨hop, hrsv, ha, -, hx⟩ := cmdFields_of_and h
  exact ⟨.readReg (cmdA w) (cmdR w), validSlaveAddr_of_and ha, rfl,
    congrArg EncodedWord.cmd
      (packCmd_of_fields (eq_of_and_full hop) (eq_of_and_full hrsv) rfl rfl (eq_of_and_full hx))⟩

theorem rowReads_readBurst : RowReads ⟨"READ_BURST", 32, 0xFF800000, 0x60000000⟩ :=
  .cmd fun w h => by
    obtain ⟨hop, hrsv, ha, -, -⟩ := cmdFields_of_and h
    exact ⟨.readBurst (cmdA w) (cmdR w) (cmdX w), validSlaveAddr_of_and ha, rfl,
      congrArg EncodedWord.cmd
        (packCmd_of_fields (eq_of_and_full hop) (eq_of_and_full hrsv) rfl rfl rfl)⟩

theorem rowReads_forceStop : RowReads ⟨"FORCE_STOP", 32, 0xFFFFFFFF, 0x80000000⟩ :=
  .cmd fun w h => ⟨.forceStop, rfl, rfl, by rw [eq_of_and_full h]; rfl⟩

theorem rowReads_uInit : RowReads ⟨"U_INIT", 16, 0xFF00, 0x0000⟩ := .uop fun w h => by
  obtain ⟨hcode, haux, -⟩ := uopFields_of_and h
  exact ⟨.uInit (uopImm w), rfl, rfl, congrArg EncodedWord.uop
    (packUop_of_fields (eq_of_and_full hcode) (eq_of_and_full haux) rfl)⟩

theorem rowReads_uAck : RowReads ⟨"U_ACK", 16, 0xFEFF, 0x6000⟩ := .uop fun w h => by
  obtain ⟨hcode, haux, himm⟩ := uopFields_of_and h
  exact ⟨.uAck ((uopAux w).getLsbD 0), rfl, rfl, congrArg EncodedWord.uop
    (packUop_of_fields (eq_of_and_full hcode) (ackAux_of_fields (ackAux_of_and haux))
      (eq_of_and_full himm))⟩

theorem rowReads_uWbyte : RowReads ⟨"U_WBYTE", 16, 0xFF00, 0x8000⟩ := .uop fun w h => by
  obtain ⟨hcode, haux, -⟩ := uopFields_of_and h
  exact ⟨.uWbyte (uopImm w), rfl, rfl, congrArg EncodedWord.uop
    (packUop_of_fields (eq_of_and_full hcode) (eq_of_and_full haux) rfl)⟩

theorem rowReads_uCheck : RowReads ⟨"U_CHECK", 16, 0xF0E0, 0xA000⟩ := .uop fun w h => by
  obtain ⟨hcode, -, himm⟩ := uopFields_of_and h
  exact ⟨.uCheck (uopAux w) ((uopImm w).extractLsb' 0 5), rfl, rfl, congrArg EncodedWord.uop
    (packUop_of_fields (eq_of_and_full hcode) rfl (checkImm_of_fields (checkImm_of_and himm)))⟩

theorem rowReads_opcodeTable : ∀ r ∈ opcodeTable, RowReads r := by
  simp only [opcodeTable, List.forall_mem_cons]
  exact ⟨rowReads_init, rowReads_writeReg, rowReads_readReg, rowReads_readBurst, rowReads_forceStop,
    rowReads_uInit, .plainUop (i := .uStart) rfl rfl, .plainUop (i := .uClrStart) rfl rfl,
    .plainUop (i := .uStop) rfl rfl, .plainUop (i := .uGo) rfl rfl, .plainUop (i := .uWait) rfl rfl,
    rowReads_uAck, .plainUop (i := .uStatus) rfl rfl, rowReads_uWbyte,
    .plainUop (i := .uRbyte) rfl rfl, rowReads_uCheck, nofun⟩

theorem packUop_and (code code' aux aux' : BitVec 4) (imm imm' : Byte) :
    packUop code aux imm &&& packUop code' aux' imm' =
      packUop (code &&& code') (aux &&& aux') (imm &&& imm') :=
  (BitVec.and_append (x₁ := code ++ aux) (x₂ := code' ++ aux')).trans
    (congrArg (· ++ (imm &&& imm')) BitVec.and_append)

/-- The row of `U_CHECK` selects its word at any `err` (notes/assumptions/11.md). -/
theorem selects_uCheck (k : BitVec 4) (s : Status) :
    Row.selects ⟨"U_CHECK", 16, 0xF0E0, 0xA000⟩ (encode (.uCheck k s)) = true := by
  have hand : packUop 0xA#4 k (0#3 ++ s) &&& packUop 0xF#4 0#4 0xE0#8 = 0xA000#16 := by
    rw [packUop_and, BitVec.and_zero]
    revert s
    decide
  exact beq_iff_eq.mpr hand

/-- A row of the table selects the word of every decodable instruction (R94, R98). -/
theorem exists_row_selects_encode {i : Instr} (h : i.decodable = true) :
    ∃ r ∈ opcodeTable, r.mnemonic = i.mnemonic ∧ r.selects (encode i) = true := by
  cases i with
  | init d => exact Laws.RowSelects.init d h
  | writeReg a r v => exact Laws.RowSelects.writeReg a r v h
  | readReg a r => exact Laws.RowSelects.readReg a r h
  | readBurst a r n => exact Laws.RowSelects.readBurst a r n h
  | forceStop => exact Laws.RowSelects.forceStop h
  | uInit d => exact Laws.RowSelects.uInit d h
  | uStart => exact Laws.RowSelects.uStart h
  | uClrStart => exact Laws.RowSelects.uClrStart h
  | uStop => exact Laws.RowSelects.uStop h
  | uGo => exact Laws.RowSelects.uGo h
  | uWait => exact Laws.RowSelects.uWait h
  | uAck e => exact Laws.RowSelects.uAck e h
  | uStatus => exact Laws.RowSelects.uStatus h
  | uWbyte b => exact Laws.RowSelects.uWbyte b h
  | uRbyte => exact Laws.RowSelects.uRbyte h
  | uCheck k s => exact ⟨_, by simp [opcodeTable], rfl, selects_uCheck k s⟩

end Sys2Proof

open Sys2Proof Sys2Proof.Machine

/-- Settles O1: a well-formed instruction is one that its word decodes to. -/
theorem decodeOfEncodeIsIdentity : Obligations.DecodeOfEncodeIsIdentity :=
  fun _ hi => decode_encode (Instr.decodable_of_wf hi)

/-- Settles O2: the decoder's answer is the instruction whose word it is. -/
theorem encodeOfDecodeIsIdentity : Obligations.EncodeOfDecodeIsIdentity :=
  fun _ _ h => (decode_eq_ok_iff.mp h).2

/-- Settles O3: a row selects the words of the instructions of its mnemonic, and only those. -/
theorem decoderFollowsOpcodeTable : Obligations.DecoderFollowsOpcodeTable := by
  intro w
  have hreads {r : Row} (hr : r ∈ opcodeTable) (hw : r.selects w = true) :
      ∃ i, decode w = .ok i ∧ i.mnemonic = r.mnemonic := by
    obtain ⟨i, hi, hm, he⟩ := rowReads_opcodeTable r hr w hw
    exact ⟨i, decode_eq_ok_iff.mpr ⟨hi, he⟩, hm⟩
  refine ⟨⟨?_, ?_⟩, ?_⟩
  · rintro ⟨i, h⟩
    obtain ⟨hi, rfl⟩ := decode_eq_ok_iff.mp h
    obtain ⟨r, hr, -, hsel⟩ := exists_row_selects_encode hi
    exact ⟨r, hr, hsel⟩
  · rintro ⟨r, hr, hw⟩
    obtain ⟨i, h, -⟩ := hreads hr hw
    exact ⟨i, h⟩
  · intro i h r hr hw
    obtain ⟨j, hj, hm⟩ := hreads hr hw
    cases h.symm.trans hj
    exact hm.symm

end

section
/-! PROOFS. The codes and the bytes on the bus (spec/30_encoding.md R93 to R96, R102 to R105, R115). -/

namespace Sys2Proof.Machine

theorem Phase.code_injective : Function.Injective Phase.code := fun x y => by
  cases x <;> cases y <;> decide

theorem MicroStep.code_injective : Function.Injective MicroStep.code := fun x y => by
  cases x <;> cases y <;> decide

theorem Result.code_injective : Function.Injective Result.code := fun x y => by
  cases x <;> cases y <;> decide

theorem Op.code_injective : Function.Injective Op.code := fun x y => by
  cases x <;> cases y <;> decide

/-- The trace entry of a code: its kind in bits 9:8, its payload in bits 7:0 (R115). -/
def TraceEntry.ofCode (c : BitVec 10) : TraceEntry :=
  match (c.extractLsb' 8 2).toNat with
  | 0 => .start
  | 1 => .stop
  | 2 => .tx (c.extractLsb' 0 8)
  | _ => .rx (c.getLsbD 0)

theorem TraceEntry.ofCode_code (e : TraceEntry) : ofCode e.code = e := by
  cases e with
  | start | stop => rfl
  | tx b => revert b; decide
  | rx a => revert a; decide

/-- `REG` with its top bit set (R96). -/
theorem regAddrByte_burst (r : Byte) : regAddrByte .readBurst r = r ||| 0x80#8 := rfl

end Sys2Proof.Machine

open Sys2Proof Sys2Proof.Machine

/-- Settles O55: each table of codes is injective. -/
theorem codesAreInjective : Obligations.CodesAreInjective :=
  ⟨@Phase.code_injective, @MicroStep.code_injective, @Result.code_injective, @Op.code_injective,
    @(Function.LeftInverse.injective TraceEntry.ofCode_code)⟩

/-- Settles O6: appending the direction doubles the address and adds the direction. -/
theorem addressByteIsAddressThenDirection : Obligations.AddressByteIsAddressThenDirection := by
  intro a
  have happend (d : BitVec 1) : (slaByte a d).toNat = 2 * a.toNat + d.toNat := by
    rw [slaByte, BitVec.toNat_append, ← Nat.shiftLeft_add_eq_or_of_lt d.isLt, Nat.shiftLeft_eq]
    omega
  exact ⟨happend 0#1, happend 1#1⟩

/-- Settles O7: only the burst sets a bit, and where it is set already nothing changes. -/
theorem burstSetsTopBitOfRegisterByte : Obligations.BurstSetsTopBitOfRegisterByte := by
  intro r
  refine ⟨rfl, rfl, ?_, fun i hi => ?_, fun h7 => ⟨?_, fun a n s hp hinit ha hn => ?_⟩⟩
  · simp [regAddrByte_burst]
  · rw [regAddrByte_burst, BitVec.getLsbD_or]
    interval_cases i <;> simp
  · rw [regAddrByte_burst]
    revert r
    decide
  · have hi : launchesStart (.readBurst a r n) = true := by
      simp [launchesStart, validSlaveAddr_of_lt ha, hn]
    exact ⟨_, exec_launchesStart hi hp hinit, rfl, rfl⟩

end

section
/-! PROOFS. Commands that are turned away in `IDLE` (spec/30_encoding.md R106 to R109), and a response
that stays (R103). -/

namespace Sys2Proof.Machine

theorem validSlaveAddr_of_ge {a : Byte} (h : 128 ≤ a.toNat) : validSlaveAddr a = false := by
  simpa [validSlaveAddr] using h

/-! ## The gates -/

theorem initGate_of_initialized {s : State} (h : s.initialized = true) :
    initGate s = some .alreadyInitialized := by
  rw [initGate, if_pos h]

theorem initializedGate_of_not_initialized {s : State} (h : s.initialized = false) :
    initializedGate s = some .notInitialized := by
  simp [initializedGate, h]

/-- With a 7-bit address R109 is the gate (R108). -/
theorem transactionGate_of_lt {a : Byte} (h : a.toNat < 128) (s : State) :
    transactionGate a s = initializedGate s := by
  rw [transactionGate, if_pos (validSlaveAddr_of_lt h)]

theorem transactionGate_of_ge {a : Byte} (h : 128 ≤ a.toNat) (s : State) :
    transactionGate a s = some .slaveAddressAbove127 := by
  simp [transactionGate, validSlaveAddr_of_ge h]

/-- A transaction whose gate refuses is turned away (R13). -/
theorem exec_transaction_refused {a : Byte} {s : State} {e : Refusal} (hp : s.ph = .idle)
    (hg : transactionGate a s = some e) (r x : Byte) :
    exec (.writeReg a r x) s = .refused e ∧ exec (.readReg a r) s = .refused e ∧
      exec (.readBurst a r x) s = .refused e := by
  have hb : s.busy = false := State.busy_eq_false_iff.mpr hp
  rw [exec, execWriteReg, exec, execReadReg, exec, execReadBurst, hg]
  exact ⟨accept_refused hb _ _ _, accept_refused hb _ _ _, accept_refused hb _ _ _⟩

/-! ## Malformed words -/

/-- A reserved code (R106), a non-zero field that the command does not use (R107), or a device address
of 128 or more (R108). -/
def Malformed (w : CmdWord) : Prop :=
  5 ≤ (cmdOp w).toNat ∨
    cmdRsv w ≠ 0#5 ∨
    (cmdOp w = 0#3 ∧ (cmdA w ≠ 0#8 ∨ cmdR w ≠ 0#8)) ∨
    (cmdOp w = 2#3 ∧ cmdX w ≠ 0#8) ∨
    (cmdOp w = 4#3 ∧ (cmdA w ≠ 0#8 ∨ cmdR w ≠ 0#8 ∨ cmdX w ≠ 0#8)) ∨
    ((cmdOp w = 1#3 ∨ cmdOp w = 2#3 ∨ cmdOp w = 3#3) ∧ 128 ≤ (cmdA w).toNat)

/-- A word that decodes is one the encoder packs, so its unused fields are 0 and its address short. -/
theorem not_malformed_of_decodeCmd {w : CmdWord} {i : Instr} (h : decodeCmd w = .ok i) :
    ¬ Malformed w := by
  unfold Malformed
  obtain ⟨hi, he⟩ := encode_of_decodeCmd h
  cases i with
  | init | forceStop => cases he; simp
  | writeReg a | readReg a | readBurst a =>
    cases he
    have ha : a.toNat < 128 := of_decide_eq_true hi
    simpa using ha
  | _ => cases he

/-- Where the next move is SEQ's, the step is SEQ's, with that move taken off the schedule (R8). -/
theorem step_of_seqMovesNext {s : State} (h : seqMovesNext s = true) :
    ∃ ms, step s = seqStep (s.setSchedule ms) := by
  cases hm : s.schedule with
  | nil => exact ⟨[], by rw [step_nil hm, ← hm]; rfl⟩
  | cons m ms =>
    have hseq : m = .seq := by simpa [seqMovesNext, hm] using h
    exact ⟨ms, by rw [step_cons hm, hseq]; rfl⟩

end Sys2Proof.Machine

open Sys2Proof Sys2Proof.Machine

/-- Settles O5: a word with one of the faults is no instruction's word, so SEQ refuses it. -/
theorem malformedCommandsAreRefused : Obligations.MalformedCommandsAreRefused := by
  intro s w huw hp hc hseq hbad
  obtain ⟨ms, hstep⟩ := step_of_seqMovesNext hseq
  cases hd : decodeCmd w with
  | ok i => exact absurd hbad (not_malformed_of_decodeCmd hd)
  | error e => exact ⟨e, hstep.trans (seqStep_undecodable (s := s.setSchedule ms) huw hp hc hd)⟩

/-- Settles O15: R109's gate, for each of the five commands. -/
theorem initialisationGateRefuses : Obligations.InitialisationGateRefuses := by
  intro a r x s hp ha
  have hb : s.busy = false := State.busy_eq_false_iff.mpr hp
  refine ⟨fun hinit => ?_, fun hinit => ?_⟩
  · have hg : initializedGate s = some .notInitialized := initializedGate_of_not_initialized hinit
    obtain ⟨hwrite, hread, hburst⟩ :=
      exec_transaction_refused hp ((transactionGate_of_lt ha s).trans hg) r x
    refine ⟨hwrite, hread, hburst, ?_⟩
    rw [exec, execForceStop, hg]
    exact accept_refused hb _ _ _
  · rw [exec, execInit, initGate_of_initialized hinit]
    exact accept_refused hb _ _ _

/-- Settles O16: R108's gate comes before R109's. -/
theorem deviceAddressAbove127IsRefused : Obligations.DeviceAddressAbove127IsRefused :=
  fun _ r x s hp ha => exec_transaction_refused hp (transactionGate_of_ge ha s) r x

/-- Settles O36: without a command SEQ does nothing in `IDLE`, and the other agents' moves do not touch
the response. -/
theorem responseStaysUntilNextCommand : Obligations.ResponseStaysUntilNextCommand := by
  intro s t huw hp _ hquiet hr h
  obtain ⟨hseq, ms, hstep⟩ | ⟨-, hout⟩ := step_cases h hr
  · have hc : s.cmd = none := hquiet.resolve_right (by simp [hseq])
    rw [seqStep_nothing (s := s.setSchedule ms) huw hp hc] at hstep
    cases hstep
    exact ⟨rfl, hp⟩
  · rw [hout.frame]
    exact ⟨rfl, hp⟩

end

section
/-! PROOFS. A mismatch in any awaited phase, from its `CFG` to the abort (spec/42_protocol_steps.md R156
to R158). -/

namespace Sys2Proof.Machine

theorem awaited_of_expected {s : State} {e : Status} (h : s.expected = some e) : s.ph.awaited := by
  unfold Phase.awaited
  unfold State.expected at h
  cases hp : s.ph with
  | idle | init | stop => simp [hp] at h
  | _ => decide

/-- An awaited phase has a bus error kind, in `RX` at the last byte for the two reads (R158, R177). -/
theorem exists_errorKind_of_read {s : State} (hp : s.ph.awaited)
    (hop : s.ph = .rx → s.idx = s.len - 1#8 → s.op = .readReg ∨ s.op = .readBurst) :
    ∃ k, s.errorKind = some k ∧ k.isBusError = true := by
  obtain ⟨hidle, hinit, hstop⟩ := hp
  unfold State.errorKind
  cases hph : s.ph with
  | start | slaw | rega | value | rstart | slar => exact ⟨_, rfl, rfl⟩
  | idle => exact absurd hph hidle
  | init => exact absurd hph hinit
  | stop => exact absurd hph hstop
  | rx =>
    cases hl : s.isLast with
    | false => exact ⟨_, rfl, rfl⟩
    | true => obtain ho | ho := hop hph (beq_iff_eq.mp hl) <;> rw [ho] <;> exact ⟨_, rfl, rfl⟩

/-- R158, column `err`, by value. -/
theorem errorKind_by_value {s : State} {k : Result} (h : s.errorKind = some k) :
    (s.ph = .start → k = .startError ∧ k.code = 1#4) ∧
    (s.ph = .slaw → k = .slaveWriteError ∧ k.code = 3#4) ∧
    (s.ph = .rega → k = .writeError ∧ k.code = 5#4) ∧
    (s.ph = .value → k = .writeError ∧ k.code = 5#4) ∧
    (s.ph = .rstart → k = .repeatedStartError ∧ k.code = 2#4) ∧
    (s.ph = .slar → k = .slaveReadError ∧ k.code = 4#4) ∧
    (s.ph = .rx → s.idx ≠ s.len - 1#8 → k = .ackError ∧ k.code = 7#4) ∧
    (s.ph = .rx → s.idx = s.len - 1#8 → s.op = .readBurst → k = .nackError ∧ k.code = 8#4) ∧
    (s.ph = .rx → s.idx = s.len - 1#8 → s.op = .readReg → k = .readError ∧ k.code = 6#4) := by
  have value {r : Result} {c : BitVec 4} (hr : s.errorKind = some r) (hc : r.code = c) :
      k = r ∧ k.code = c := by
    cases h.symm.trans hr
    exact ⟨rfl, hc⟩
  refine ⟨fun hp => ?_, fun hp => ?_, fun hp => ?_, fun hp => ?_, fun hp => ?_, fun hp => ?_,
    fun hp hl => ?_, fun hp hl ho => ?_, fun hp hl ho => ?_⟩
  case refine_7 => exact value (by simp [State.errorKind, State.isLast, hp, hl]) rfl
  case refine_8 | refine_9 =>
    exact value (by simp [State.errorKind, State.isLast, hp, hl, ho]) rfl
  all_goals exact value (by rw [State.errorKind, hp]) rfl

theorem isStart_of_kind_start {p : Phase} (h : p.kind = some .start) : p.isStart = true := by
  revert h
  cases p <;> decide

theorem eq_rx_of_kind_rx {p : Phase} (h : p.kind = some .rx) : p = .rx := by
  revert h
  cases p <;> decide

/-- `l` is `s` waiting for the primitive `p` of its phase, launched with the trace entry `e`. -/
structure Launched (p : InFlight) (e : TraceEntry) (s l : State) : Prop where
  frame : l = { s with
    us := .wait, inflight := some p, trace := s.trace ++ [e], ctrl := l.ctrl, dr := l.dr }
  start : p = .start → s.ph.isStart = true

/-- From `CFG` any awaited phase launches its primitive in two micro-steps (R151 to R154). -/
theorem leads_launched {s : State} {e : TraceEntry} (huw : s.uw = none) (hu : s.us = .cfg)
    (hp : s.ph.awaited) (he : phaseEntry s = some e) :
    ∃ p l, Leads [.seq, .seq] s l ∧ Launched p e s l := by
  unfold phaseEntry at he
  split at he
  next hk =>
    cases he
    have hstart : s.ph.isStart = true := isStart_of_kind_start hk
    exact ⟨.start, _, leads_startLaunched huw hstart hu, rfl, fun _ => hstart⟩
  next hk =>
    obtain ⟨b, hb, rfl⟩ := Option.map_eq_some_iff.mp he
    exact ⟨.tx b, _, leads_txLaunched huw hk hu hb, rfl, nofun⟩
  next hk =>
    cases he
    have hrx : s.ph = .rx := eq_rx_of_kind_rx hk
    refine ⟨.rx s.ackLevel, _, leads_rxLaunched huw hrx hu, ?_, nofun⟩
    rw [← rxLaunched_trace, ← rxLaunched_level]
    rfl
  next hk => exact absurd (eq_stop_of_kind_stop hk) hp.2.2
  next => cases he

/-- The moves of an awaited phase: its launch, the answer, and SEQ's micro-steps through the check. -/
theorem phaseMoves_eq (p : Phase) (st : Status) (d : Byte) :
    phaseMoves (if p.isStart then 6 else 5) st d =
      [.seq, .seq] ++ .complete st d :: (movesToCheck p ++ [.seq]) := by
  cases h : p.isStart with
  | true => rw [movesToCheck_start h]; rfl
  | false => rw [movesToCheck_other h]; rfl

theorem length_phaseMoves (p : Phase) (st : Status) (d : Byte) :
    (phaseMoves (if p.isStart then 6 else 5) st d).length = if p.isStart then 7 else 6 := by
  split <;> rfl

/-- A phase answered with any status but the expected one: its primitive is launched, and the check
aborts (R156, R157). -/
theorem leads_mismatch {s : State} {e st : Status} {k : Result} {entry : TraceEntry}
    (huw : s.uw = none) (hu : s.us = .cfg) (hp : s.ph.awaited) (hentry : phaseEntry s = some entry)
    (hbusy : s.ph.isStart = true → s.stopBusy = false) (he : s.expected = some e)
    (hk : s.errorKind = some k) (hbus : k.isBusError = true) (hne : st ≠ e) (d : Byte) :
    ∃ c, Leads (phaseMoves (if s.ph.isStart then 6 else 5) st d) s (raiseError k c) ∧
      c.trace = s.trace ++ [entry] ∧ c.buf = s.buf ∧ c.stLatch = st := by
  obtain ⟨p, l, hlaunch, hl⟩ := leads_launched huw hu hp hentry
  have hlp : l.ph = s.ph := by rw [hl.frame]
  obtain ⟨c, hc, hlatch⟩ := leads_abort (s := l) (p := p) (by rw [hl.frame]; exact huw) (hlp ▸ hp)
    (by rw [hl.frame]) (by rw [hl.frame]) (fun h => by rw [hl.frame]; exact hbusy (hl.start h))
    (by rw [hl.frame]; exact he) (by rw [hl.frame]; exact hk) hbus hne d
  rw [hlp] at hc
  rw [phaseMoves_eq]
  exact ⟨c, hlaunch.append hc, by rw [hlatch.frame, hl.frame], by rw [hlatch.frame, hl.frame],
    by rw [hlatch.frame]⟩

end Sys2Proof.Machine

open Sys2Proof Sys2Proof.Machine

/-- Settles O46: the run of the phase ends in the abort, with R158's error kind read off the state at
`CFG`. -/
theorem mismatchAbortsAtItsPhase : Obligations.MismatchAbortsAtItsPhase := by
  intro s e st entry d ms huw hu he hentry hread hbusy hne hs
  have hp : s.ph.awaited := awaited_of_expected he
  obtain ⟨k, hk, hbus⟩ := exists_errorKind_of_read hp hread
  obtain ⟨c, hc, hctrace, hcbuf, hclatch⟩ :=
    leads_mismatch huw hu hp hentry hbusy he hk hbus hne d
  have hrun := hc.runFor hs
  rw [length_phaseMoves] at hrun
  obtain ⟨htrace, hbuf, hlatch, -, -⟩ := raiseError_kept k c
  obtain ⟨hstart, hslaw, hrega, hvalue, hrstart, hslar, hack, hnack, hreadReg⟩ :=
    errorKind_by_value hk
  exact ⟨_, k, hrun, response_raiseError k c, hstart, hslaw, hrega, hvalue, hrstart, hslar, hack,
    hnack, hreadReg, rfl, rfl, htrace.trans hctrace, hbuf.trans hcbuf, hlatch.trans hclatch, rfl⟩

end

section
/-! PROOFS. The bus control primitives (spec/40_bus_control_primitives.md R121 to R129): the field
writes, `U_INIT`, `U_WAIT` and the hold, and a placed word that the next step runs. -/

namespace Sys2Proof.Machine

/-! ## One write of a field, bit by bit (R64, R99) -/

theorem CtrlField.bit_injective : Function.Injective CtrlField.bit := fun f g => by
  cases f <;> cases g <;> decide

/-- Each bit of `CTRL` is the flag, one of the four fields, or reserved (R99). -/
theorem ctrlBit_cases {i : Nat} (hi : i < 8) :
    i = 7 ∨ (∃ g : CtrlField, i = g.bit) ∨ i = 3 ∨ i = 1 ∨ i = 0 := by
  interval_cases i
  · exact .inr (.inr (by decide))
  · exact .inr (.inr (by decide))
  · exact .inr (.inl ⟨.enable, rfl⟩)
  · exact .inr (.inr (by decide))
  · exact .inr (.inl ⟨.stop, rfl⟩)
  · exact .inr (.inl ⟨.start, rfl⟩)
  · exact .inr (.inl ⟨.ack, rfl⟩)
  · exact .inl rfl

/-- Every write of `CTRL` by SEQ leaves bits 3, 1 and 0 at 0 (R64, U13). -/
theorem getLsbD_storeCtrl_reserved {i : Nat} (hi : i = 3 ∨ i = 1 ∨ i = 0) (old v : Byte) :
    (storeCtrl old v).getLsbD i = false := by
  have h := congrArg (BitVec.getLsbD · i) (storeCtrl_used old v)
  obtain rfl | rfl | rfl := hi <;> simpa [ctrlUsedMask] using h

/-- A field write sets its field and zeroes the reserved bits; the flag and the other fields stay. -/
theorem fieldSet_setField (f : CtrlField) (b : Bool) (s : State) :
    FieldSet f.bit b s.ctrl (s.setField f b).ctrl := by
  intro i hi
  change (storeCtrl s.ctrl (fieldWriteByte f b s.ctrl)).getLsbD i = _
  obtain rfl | ⟨g, rfl⟩ | hres := ctrlBit_cases hi
  · have hf : 7 ≠ f.bit := by cases f <;> decide
    rw [if_neg hf, if_neg (by decide)]
    exact ctrlInt_store_fieldWrite f b s.ctrl
  · have hg : ¬ (g.bit = 3 ∨ g.bit = 1 ∨ g.bit = 0) := by cases g <;> decide
    by_cases hgf : g = f
    · subst hgf
      rw [if_pos rfl]
      exact ctrlField_store_fieldWrite_same g b s.ctrl
    · have hbit : g.bit ≠ f.bit := fun h => hgf (CtrlField.bit_injective h)
      rw [if_neg hbit, if_neg hg]
      exact ctrlField_store_fieldWrite_other hgf b s.ctrl
  · have hf : i ≠ f.bit := by
      rintro rfl
      cases f <;> revert hres <;> decide
    rw [if_neg hf, if_pos hres]
    exact getLsbD_storeCtrl_reserved hres _ _

/-- A micro-op that writes one field of `CTRL` and then goes on to the micro-step `v`. -/
theorem exists_advance_setField {k : UopKind} {f : CtrlField} {b : Bool} {s : State} {v : MicroStep}
    (hv : sequel k (s.setField f b) = some ((s.setField f b).setPc s.ph v)) :
    ∃ t, advance k (s.setField f b) = .next t ∧
      FieldSet f.bit b s.ctrl t.ctrl ∧
      (selected s.ph s.us = some k → t.ph = s.ph ∧ t.us = v) ∧
      t = { s with ctrl := t.ctrl, ph := t.ph, us := t.us } := by
  by_cases hk : selected s.ph s.us = some k
  · exact ⟨_, advance_selected hk hv, fieldSet_setField f b s, fun _ => ⟨rfl, rfl⟩, rfl⟩
  · exact ⟨_, advance_elsewhere hk, fieldSet_setField f b s, fun h => absurd h hk, rfl⟩

/-- `initialize`'s `CTRL` write by value (R121). -/
theorem storeCtrl_initByte (c : Byte) : storeCtrl c initByte = 0x44#8 ||| (c &&& 0x80#8) := rfl

/-- What `initialize` leaves of the controller, for any divisor (R121). -/
def State.configuredWith (d : Byte) (s : State) : State :=
  ((s.setBr d).setCtrl (storeCtrl s.ctrl initByte)).setInitialized true

theorem exec_uInit_selected {s : State} (h : selected s.ph s.us = some .init) (d : Byte) :
    exec (.uInit d) s = .next { s.configuredWith d with
      result := .ok, count := 0#8, resultValid := true, ph := .idle, us := .cfg } :=
  (execUInit_eq d s).trans (advance_selected h rfl)

theorem exec_uInit_elsewhere {s : State} (h : selected s.ph s.us ≠ some .init) (d : Byte) :
    exec (.uInit d) s = .next (s.configuredWith d) :=
  (execUInit_eq d s).trans (advance_elsewhere h)

/-! ## The hold at `U_WAIT` (R128, R226) -/

/-- HOST's offer, whatever moves come after it. -/
theorem leads_offer (w : CmdWord) (s : State) : Leads [.offer w] s (offer w s) := by
  refine .of_makeMove fun ms => ?_
  cases hc : s.cmd with
  | none => rw [makeMove, offer_free (s := s.setSchedule ms) hc, offer_free hc]; rfl
  | some v => rw [makeMove, offer_taken (s := s.setSchedule ms) hc, offer_taken hc]

/-- SEQ is at `U_WAIT`, no micro-word stands in its place, and the flag is 0. -/
structure Waiting (s : State) : Prop where
  uw : s.uw = none
  sel : selected s.ph s.us = some .wait
  flag : ctrlInt s.ctrl = false

theorem Waiting.setCmd {s : State} (h : Waiting s) (c : Option CmdWord) : Waiting (s.setCmd c) :=
  ⟨h.uw, h.sel, h.flag⟩

theorem Waiting.setSchedule {s : State} (h : Waiting s) (ms : List Move) :
    Waiting (s.setSchedule ms) :=
  ⟨h.uw, h.sel, h.flag⟩

theorem Waiting.seqStep {s : State} (h : Waiting s) : seqStep s = .next s :=
  seqStep_held h.uw h.sel h.flag

/-- While SEQ is held, its own moves change nothing and HOST's change the port alone. -/
theorem Waiting.leads {s : State} (h : Waiting s) {l : List Move}
    (hl : ∀ m ∈ l, m = .seq ∨ ∃ w, m = .offer w) : ∃ c, Leads l s (s.setCmd c) := by
  induction l generalizing s with
  | nil => exact ⟨s.cmd, .nil s⟩
  | cons m l ih =>
    obtain ⟨hm, hrest⟩ := List.forall_mem_cons.mp hl
    obtain rfl | ⟨w, rfl⟩ := hm
    · obtain ⟨c, hc⟩ := ih h hrest
      exact ⟨c, .cons (.seq fun ms => (h.setSchedule ms).seqStep) hc⟩
    · obtain ⟨c, hc⟩ := offer_eq w s
      obtain ⟨d, hd⟩ := ih (h.setCmd c) hrest
      exact ⟨d, .cons (hc ▸ leads_offer w s) hd⟩

/-- With no move of another agent to come, a held SEQ is held for any number of steps (R226). -/
theorem Waiting.runFor {s : State} (h : Waiting s) (hs : s.schedule = []) (n : Nat) :
    runFor n s = .next s := by
  induction n with
  | zero => rfl
  | succ n ih => rw [runFor_succ ((step_nil hs).trans h.seqStep), ih]

/-! ## A placed word (notes/assumptions/2.md, 3.md) -/

/-- A word of a table row is a command word or a micro-word. -/
theorem decodeTableWord_cases {nbits w : Nat} {i : Instr} (h : decodeTableWord nbits w = some i) :
    (nbits = 32 ∧ decodeCmd (BitVec.ofNat 32 w) = .ok i) ∨
      (nbits = 16 ∧ decodeUop (BitVec.ofNat 16 w) = .ok i) := by
  have ok_of_toOption {d : Except Reject Instr} (hd : d.toOption = some i) : d = .ok i := by
    cases d with
    | ok j => cases hd; rfl
    | error e => cases hd
  unfold decodeTableWord at h
  split_ifs at h with _ h32 h16
  · exact .inl ⟨h32, ok_of_toOption h⟩
  · exact .inr ⟨h16, ok_of_toOption h⟩

/-- A micro-word put in place is what SEQ runs. -/
theorem seqStep_placed {s : State} {w : MicroWord} {i : Instr} (hu : s.uw = some w)
    (hi : decodeUop w = .ok i) : seqStep s = exec i (s.setUw none) := by
  simp [seqStep, fetch, hu, hi, runDecoded]

/-- Putting a micro-word in place moves the pair at most. -/
theorem placeUop_frame (w : MicroWord) (s : State) :
    ∃ p u, placeUop w s = { s with ph := p, us := u, uw := some w } := by
  unfold placeUop
  split
  next i _ =>
    split
    next k _ =>
      unfold atHome
      split <;> exact ⟨_, _, rfl⟩
    next => exact ⟨_, _, rfl⟩
  next => exact ⟨_, _, rfl⟩

/-- The first move after a word is placed is SEQ's. -/
theorem step_withFetchWord (s : State) (nbits w : Nat) :
    step (s.withFetchWord nbits w) = seqStep ((s.withFetchWord nbits w).setSchedule s.schedule) :=
  step_cons (s := s.withFetchWord nbits w) rfl

end Sys2Proof.Machine

open Sys2Proof Sys2Proof.Machine

/-- Settles O45: SEQ is held through the moves of the schedule and through the steps after it. -/
theorem deadBusHoldsForEver : Obligations.DeadBusHoldsForEver := by
  intro s l n huw hsel hflag hl
  have hwait : Waiting s := ⟨huw, hsel, hflag⟩
  obtain ⟨c, hc⟩ := hwait.leads hl
  have hmoves : runFor l.length (s.setSchedule l) = .next ((s.setCmd c).setSchedule []) := by
    simpa using hc []
  refine ⟨(s.setCmd c).setSchedule [], ?_, rfl⟩
  rw [runFor_add hmoves]
  exact ((hwait.setCmd c).setSchedule []).runFor rfl n

/-- Settles O9: a command word is accepted in `IDLE` and a micro-word is run in place. -/
theorem placedWordRunsNext : Obligations.PlacedWordRunsNext := by
  intro s nbits w i hw
  rw [step_withFetchWord]
  obtain ⟨rfl, hd⟩ | ⟨rfl, hd⟩ := decodeTableWord_cases hw
  · exact seqStep_command rfl rfl rfl hd
  · obtain ⟨p, u, hplace⟩ := placeUop_frame (BitVec.ofNat 16 w) s
    have hs : s.withFetchWord 16 w =
        (placeUop (BitVec.ofNat 16 w) s).setSchedule (.seq :: s.schedule) := rfl
    rw [hs, hplace]
    exact seqStep_placed rfl hd

/-- Settles O18: the effect of `U_INIT` by value, answered at the pair that selects it. -/
theorem initConfiguresController : Obligations.InitConfiguresController := by
  intro d s
  have hctrl : (s.configuredWith d).ctrl = 0x44#8 ||| (s.ctrl &&& 0x80#8) :=
    storeCtrl_initByte s.ctrl
  by_cases hk : selected s.ph s.us = some .init
  · exact ⟨_, exec_uInit_selected hk d, rfl, hctrl, rfl, fun _ _ => ⟨rfl, rfl, rfl, rfl, rfl⟩,
      fun h => absurd hk h, rfl⟩
  · exact ⟨_, exec_uInit_elsewhere hk d, rfl, hctrl, rfl,
      fun hp hu => absurd (selected_init.mpr ⟨hp, hu⟩) hk, fun _ => rfl, rfl⟩

/-- Settles O19: a write of `START` with 1, then `GO`. -/
theorem startRequestSetsStartBit : Obligations.StartRequestSetsStartBit := by
  intro s
  rw [exec, execUStart_eq]
  exact exists_advance_setField rfl

/-- Settles O20: a write of `START` with 0, then `CHK`. -/
theorem clearStartClearsStartBit : Obligations.ClearStartClearsStartBit := by
  intro s
  rw [exec, execUClrStart_eq]
  exact exists_advance_setField rfl

/-- Settles O21: a write of `STOP` with 1, then `GO`. -/
theorem stopRequestSetsStopBit : Obligations.StopRequestSetsStopBit := by
  intro s
  rw [exec, execUStop_eq]
  exact exists_advance_setField rfl

/-- Settles O22: a write of `ACK` with the operand, then `GO`; the frame has `INFLIGHT` as it was. -/
theorem ackSetsLevelForNextLaunch : Obligations.AckSetsLevelForNextLaunch := by
  intro e s
  rw [exec, execUAck_eq]
  obtain ⟨t, hnext, hset, hpc, hframe⟩ := exists_advance_setField (k := .ack) (f := .ack) (b := e)
    (s := s) rfl
  exact ⟨t, hnext, hset, by rw [hframe], hpc, hframe⟩

/-- Settles O24: neither phase has a primitive. -/
theorem goHasNoPrimitiveInIdleOrInit : Obligations.GoHasNoPrimitiveInIdleOrInit := by
  intro s hp
  have hk : s.ph.kind = none := by obtain hp | hp := hp <;> rw [hp] <;> rfl
  exact execUGo_refused hk

/-- Settles O25: the hold, the row of R150, and the pair that stays. -/
theorem waitHoldsUntilFlag : Obligations.WaitHoldsUntilFlag := by
  intro s
  rw [exec, execUWait_eq]
  refine ⟨fun hflag => ?_, fun hflag hk => ?_, fun hflag hk => ?_⟩
  · exact if_neg (Bool.eq_false_iff.mp hflag)
  · exact (if_pos hflag).trans (advance_selected hk rfl)
  · exact (if_pos hflag).trans (advance_elsewhere hk)

end

section
/-! PROOFS. The status reader and the byte transfer (spec/41_status_and_byte_transfer.md R140 to
R142): each micro-op is an effect on the registers, said once for inside the window and outside it,
and then its row of R150. -/

namespace Sys2Proof.Machine

/-! ## The reads of the controller, inside the window and outside it (R66, R67) -/

theorem exists_readSr (s : State) : ∃ v n, readSr s = (v, { s with draws := n }) ∧
    (s.windowOpen = true → v = s.sr ∧ n = s.draws) := by
  cases hw : s.windowOpen with
  | true => exact ⟨s.sr, s.draws, readSr_open hw, fun _ => ⟨rfl, rfl⟩⟩
  | false =>
    have hread : readSr s = (Config.freeSrRead s.draws, s.nextDraw) := by simp [readSr, hw]
    exact ⟨_, _, hread, nofun⟩

theorem exists_readDr (s : State) : ∃ v n, readDr s = (v, { s with draws := n }) ∧
    (s.windowOpen = true → v = s.dr ∧ n = s.draws) := by
  cases hw : s.windowOpen with
  | true => exact ⟨s.dr, s.draws, readDr_open hw, fun _ => ⟨rfl, rfl⟩⟩
  | false =>
    have hread : readDr s = (Config.freeDrRead s.draws, s.nextDraw) := by simp [readDr, hw]
    exact ⟨_, _, hread, nofun⟩

/-- The status is the five upper bits of `SR` (R100). -/
theorem getLsbD_statusOf {i : Nat} (hi : i < 5) (v : Byte) :
    (statusOf v).getLsbD i = v.getLsbD (i + 3) := by
  have hmask : ∀ j < 5, (0xF8#8).getLsbD (3 + j) = true := by decide
  rw [statusOf, BitVec.getLsbD_extractLsb', BitVec.getLsbD_and, hmask i hi, Nat.add_comm 3 i]
  simp [hi]

/-! ## Each micro-op up to its sequencing -/

theorem exec_uStatus_eq_advance (s : State) : ∃ c n,
    exec .uStatus s = advance .status { s with stLatch := c, draws := n } ∧
    (s.windowOpen = true → c = statusOf s.sr ∧ n = s.draws) := by
  obtain ⟨v, n, hread, hopen⟩ := exists_readSr s
  refine ⟨statusOf v, n, ?_, fun hw => ⟨congrArg statusOf (hopen hw).1, (hopen hw).2⟩⟩
  rw [exec, execUStatus, memRead_sr, orRefuse_ok, hread]
  rfl

theorem exec_uRbyte_eq_advance {s : State} (hi : s.idx.toNat < Config.maxBurst) : ∃ v n,
    exec .uRbyte s = advance .rbyte { s with buf := s.buf.write s.idx.toNat v, draws := n } ∧
    (s.windowOpen = true → v = s.dr ∧ n = s.draws) := by
  obtain ⟨v, n, hread, hopen⟩ := exists_readDr s
  refine ⟨v, n, ?_, hopen⟩
  rw [exec, execURbyte, if_pos hi, memRead_dr, orRefuse_ok, hread]
  rfl

/-! ## Sequencing -/

/-- A micro-op whose row of R150 goes to the micro-step `v` of the same phase writes only the
pair. -/
theorem exists_advance_inPhase {k : UopKind} {u : State} {v : MicroStep}
    (hv : sequel k u = some (u.setPc u.ph v)) :
    ∃ t, advance k u = .next t ∧
      (selected u.ph u.us = some k → t.ph = u.ph ∧ t.us = v) ∧
      t = { u with ph := t.ph, us := t.us } := by
  by_cases hk : selected u.ph u.us = some k
  · exact ⟨_, advance_selected hk hv, fun _ => ⟨rfl, rfl⟩, rfl⟩
  · exact ⟨_, advance_elsewhere hk, fun h => absurd h hk, rfl⟩

theorem afterStatus_eq (p : Phase) :
    p.afterStatus = if p = .start ∨ p = .rstart then .clr else .chk := by
  cases p <;> rfl

/-- After the last byte: the stop, and `IDX` stays (R154). -/
theorem nextByte_atLast {s : State} (h : s.idx.toNat + 1 = s.len.toNat) :
    s.nextByte = s.setPc .stop .cfg :=
  if_pos ((isLast_iff (by omega)).mpr h)

/-- After an earlier byte: the next one (R154). -/
theorem nextByte_beforeLast {s : State} (h : s.idx.toNat + 1 < s.len.toNat) :
    s.nextByte = (s.setIdx (s.idx + 1#8)).setPc .rx .cfg :=
  if_neg fun hlast => absurd ((isLast_iff (by omega)).mp hlast) (Nat.ne_of_lt h)

/-- Sequencing after `U_RBYTE`: the row of R150 where the pair selects it, nothing elsewhere. -/
theorem exists_advance_rbyte (u : State) : ∃ t, advance .rbyte u = .next t ∧
    (selected u.ph u.us = some .rbyte →
      (u.idx.toNat + 1 = u.len.toNat → t.ph = .stop ∧ t.us = .cfg ∧ t.idx = u.idx) ∧
      (u.idx.toNat + 1 < u.len.toNat →
        t.ph = .rx ∧ t.us = .cfg ∧ t.idx.toNat = u.idx.toNat + 1)) ∧
    (selected u.ph u.us ≠ some .rbyte → t = u) ∧
    t = { u with idx := t.idx, ph := t.ph, us := t.us } := by
  by_cases hk : selected u.ph u.us = some .rbyte
  · refine ⟨u.nextByte, advance_selected hk rfl, fun _ => ⟨fun hl => ?_, fun hl => ?_⟩,
      absurd hk, ?_⟩
    · rw [nextByte_atLast hl]
      exact ⟨rfl, rfl, rfl⟩
    · have hsucc : (u.idx + 1#8).toNat = u.idx.toNat + 1 := by bv_omega
      rw [nextByte_beforeLast hl]
      exact ⟨rfl, rfl, hsucc⟩
    · rw [nextByte_frame]
  · exact ⟨u, advance_elsewhere hk, fun h => absurd h hk, fun _ => rfl, rfl⟩

end Sys2Proof.Machine

open Sys2Proof Sys2Proof.Machine

/-- Settles O26: the read of `SR`, its five upper bits into the latch, then `CLR` or `CHK`. -/
theorem statusLatchesFiveBits : Obligations.StatusLatchesFiveBits := by
  intro s
  obtain ⟨c, n, hexec, hopen⟩ := exec_uStatus_eq_advance s
  obtain ⟨t, hnext, hpc, hframe⟩ := exists_advance_inPhase (k := .status)
    (u := { s with stLatch := c, draws := n }) (v := s.ph.afterStatus) rfl
  refine ⟨t, hexec.trans hnext, fun hw => ?_, afterStatus_eq s.ph ▸ hpc, ?_⟩
  · obtain ⟨rfl, rfl⟩ := hopen hw
    rw [hframe]
    exact ⟨fun i hi => getLsbD_statusOf hi s.sr, rfl⟩
  · rw [hframe]

/-- Settles O27: the write of `DR`, then `GO`; the frame has `INFLIGHT` and `TRACE` as they were. -/
theorem writeByteStagesData : Obligations.WriteByteStagesData := by
  intro b s
  obtain ⟨t, hnext, hpc, hframe⟩ :=
    exists_advance_inPhase (k := .wbyte) (u := s.setDr b) (v := .go) rfl
  exact ⟨t, (execUWbyte_eq b s).trans hnext, by rw [hframe]; rfl, by rw [hframe]; rfl,
    by rw [hframe]; rfl, hpc, hframe⟩

/-- Settles O28: the read of `DR`, one write of `BUF` at `IDX`, then the stop or the next byte. -/
theorem readByteStoresAtIndex : Obligations.ReadByteStoresAtIndex := by
  intro s hwf hidx
  obtain ⟨v, n, hexec, hopen⟩ := exec_uRbyte_eq_advance hidx
  obtain ⟨t, hnext, hsel, helse, hframe⟩ :=
    exists_advance_rbyte { s with buf := s.buf.write s.idx.toNat v, draws := n }
  have hbuf : t.buf = s.buf.write s.idx.toNat v := by rw [hframe]
  refine ⟨t, hexec.trans hnext, fun hw => ?_, fun j hj => ?_, ?_, hsel, fun hk => ?_, ?_⟩
  · obtain ⟨rfl, rfl⟩ := hopen hw
    exact ⟨hbuf ▸ Memory.read_write_same hwf _ _, by rw [hframe]⟩
  · rw [hbuf, Memory.read_write_other hj]
  · exact hbuf ▸ Memory.wf_write hwf _ v
  · rw [helse hk]
  · rw [hframe]

end

section
/-! PROOFS. The steps of the protocol (spec/42_protocol_steps.md R150 to R160) and the transactions
that run through them (spec/43_transactions.md R172 to R175): the fetched instruction, the check,
and each command from its acceptance to its response. -/

namespace Sys2Proof.Machine

/-! ## The fetched instruction (R150, R170) -/

/-- Where the next move is SEQ's, the step is SEQ's from the state with that move taken off (R8). -/
theorem step_eq_seqStep {s : State} (h : seqMovesNext s = true) :
    step s = seqStep (s.setSchedule s.schedule.tail) := by
  cases hm : s.schedule with
  | nil => rw [step_nil hm, List.tail_nil, ← hm]; rfl
  | cons m ms =>
    have hseq : m = .seq := by simpa [seqMovesNext, hm] using h
    rw [step_cons hm, hseq]
    rfl

/-- The kinds that a check reports have codes 1 to 8 (R98, R158). -/
theorem validErrCode_of_errorKind {s : State} {k : Result} (h : s.errorKind = some k) :
    validErrCode k.code = true := by
  unfold State.errorKind at h
  split at h
  case h_7 =>
    split at h
    · split at h <;> cases h <;> rfl
    · cases h; rfl
  all_goals cases h <;> rfl

/-- What SEQ issues is well-formed; only the check has an operand with a range (R98, R150). -/
theorem wf_of_issue {s : State} {i : Instr} (h : issue s = .ok i) : i.wf = true := by
  cases hsel : selected s.ph s.us with
  | none => simp only [issue, hsel, reduceCtorEq] at h
  | some k =>
    cases k with
    | check =>
      simp only [issue, hsel] at h
      split at h <;> cases h
      next hk => exact validErrCode_of_errorKind hk
    | wbyte =>
      simp only [issue, hsel] at h
      split at h <;> cases h
      rfl
    | _ =>
      simp only [issue, hsel] at h
      cases h
      rfl

/-! ## The check (R156, R157) -/

/-- Outside `RX` a check that passes enters the phase that R177 gives. -/
theorem sequel_check_enterPhase {s : State} {q : Phase} (hq : nextPhase s.op s.ph = some q) :
    sequel .check s = some (s.enterPhase q) := by
  have hrx : s.ph ≠ .rx := by intro hp; rw [hp] at hq; cases hq
  simp only [sequel, if_neg hrx, hq, Option.map_some, State.enterPhase]
  split <;> rfl

/-- The error codes 1 to 8 name the kinds that have them (R98, R102). -/
theorem exists_ofErrCode {k : BitVec 4} (h1 : 1 ≤ k.toNat) (h8 : k.toNat ≤ 8) :
    ∃ r, Result.ofErrCode k = some r ∧ r.code = k := by
  have hcode : (Result.ofErrCode k).map Result.code = some k := by
    revert k
    decide
  exact Option.map_eq_some_iff.mp hcode

/-! ## `FORCE_STOP` (R175) -/

/-- Initialised and idle, SEQ accepts `FORCE_STOP` and enters the stop phase (R170). -/
theorem exec_forceStop_accepted {s : State} (hp : s.ph = .idle) (hinit : s.initialized = true) :
    exec .forceStop s = .next ((s.setOp .forceStop).setPc .stop .cfg) := by
  have hgate : initializedGate s = none := if_pos hinit
  rw [exec, execForceStop, hgate, accept_idle (State.busy_eq_false_iff.mpr hp)]

theorem decodeCmd_forceStop {w : CmdWord} (hw : encode .forceStop = .cmd w) :
    decodeCmd w = .ok .forceStop :=
  decode_eq_ok_iff.mpr ⟨rfl, hw⟩

/-- `CTRL` after `U_STOP` and the launch (R64, R124, R125). -/
theorem proceed_setField_stop_ctrl (s : State) :
    (((s.setField .stop true).setPc s.ph .go).proceed .stop).ctrl =
      (s.ctrl &&& 0x74#8) ||| 0x10#8 := by
  rw [proceed_ctrl_eq_and, State.setPc_ctrl, State.setField, State.setCtrl_ctrl]
  generalize s.ctrl = c
  revert c
  decide

/-- With no move to come a run goes on from SEQ's step. -/
theorem runFor_succ_seqStep {n : Nat} {s t : State} (hs : s.schedule = [])
    (h : seqStep s = .next t) : runFor (n + 1) s = runFor n t :=
  runFor_succ ((step_nil hs).trans h)

/-- The two micro-steps of the stop phase (R155). -/
theorem runFor_stopPhase {s : State} (huw : s.uw = none) (hp : s.ph = .stop) (hu : s.us = .cfg)
    (hs : s.schedule = []) :
    runFor 2 s =
      .next (respond .ok s.okCount (((s.setField .stop true).setPc s.ph .go).proceed .stop)) := by
  rw [runFor_succ_seqStep hs (seqStep_stop huw (selected_stop.mpr ⟨hp, hu⟩))]
  exact runFor_succ_seqStep (n := 0) (s := (s.setField .stop true).setPc s.ph .go) hs
    (seqStep_goStop huw (selected_go.mpr ⟨by simp [hp], rfl⟩) hp)

/-! ## Transactions accepted with no stop unfinished (R172 to R174) -/

/-- The acceptance, `U_START` and `U_GO` leave SEQ waiting for a start that nothing holds back. -/
theorem leads_opening {i : Instr} {s : State} (hi : launchesStart i = true) (hs : Offers i s)
    (hb : s.stopBusy = false) :
    Leads [.seq, .seq, .seq] s ((s.setCmd none).opened i).startLaunched ∧
      Opening ((s.setCmd none).opened i).startLaunched := by
  obtain ⟨hph, hus, huw, hbusy, -⟩ := opened_start hi (s.setCmd none)
  have hnone : ((s.setCmd none).opened i).uw = none := huw.trans hs.1
  exact ⟨.cons (leads_opened hi hs) (leads_startLaunched hnone (by rw [hph]; rfl) hus),
    hnone, hph, rfl, rfl, hbusy.trans hb⟩

/-- A write's stop answers `Ok` with no bytes (R155, R172). -/
theorem Stopped.response_of_writeReg {s t : State} (h : Stopped s t) (hop : s.op = .writeReg) :
    t.response = some ⟨.ok, 0#8, []⟩ := by
  obtain ⟨hvalid, hok, hcount⟩ := h.response
  rw [okCount_eq, hop, if_neg (by decide)] at hcount
  rw [State.response, hvalid, hok, hcount]
  rfl

/-- A read from its acceptance to its response, every answer the expected one (R173, R174). -/
theorem leads_acceptedRead {i : Instr} {s : State} (hi : launchesStart i = true)
    (hs : Offers i s) (hb : s.stopBusy = false)
    (hop : ((s.setCmd none).opened i).op = .readReg ∨ ((s.setCmd none).opened i).op = .readBurst)
    {ds : List Byte} (hds : ds ≠ []) (hlen : ((s.setCmd none).opened i).len.toNat = ds.length)
    (hwf : s.buf.wf = true) :
    ∃ t, Leads (.seq :: readMoves ds) s t ∧
      ReadDone ds ((s.setCmd none).opened i).startLaunched t := by
  obtain ⟨-, -, -, -, -, -, -, hbuf⟩ := opened_start hi (s.setCmd none)
  obtain ⟨hl, hopen⟩ := leads_opening hi hs hb
  have hlwf : ((s.setCmd none).opened i).startLaunched.buf.wf = true :=
    (congrArg Memory.wf hbuf).trans hwf
  obtain ⟨t, ht, hdone⟩ := leads_read hopen hop hds hlen hlwf
  exact ⟨t, hl.append ht, hdone⟩

/-- The trace of a read from before its opening start on (R173, R174). -/
theorem ReadDone.trace_eq {ds : List Byte} {l t : State} (h : ReadDone ds l t)
    {es : List TraceEntry} (hl : l.trace = es ++ [.start]) :
    t.trace = es ++ readTrace l.sla (regAddrByte l.op l.reg) ds.length := by
  rw [h.trace, hl]
  simp [readTrace]

/-- A burst's length operand holds every length from 1 to 255 (R27, R174). -/
theorem burstLength_toNat {ds : List Byte} (h : ds.length ≤ 255) :
    (BitVec.ofNat 8 ds.length).toNat = ds.length :=
  (BitVec.toNat_ofNat _ _).trans (Nat.mod_eq_of_lt (Nat.lt_succ_of_le h))

theorem launchesStart_readBurst {a : Byte} (ha : a.toNat < 128) (r : Byte) {n : Byte}
    (hn : 1 ≤ n.toNat) : launchesStart (.readBurst a r n) = true := by
  have hne : n ≠ 0#8 := by rintro rfl; exact absurd hn (by decide)
  simp [launchesStart, validSlaveAddr_of_lt ha, hne]

end Sys2Proof.Machine

open Sys2Proof Sys2Proof.Machine

/-- Settles O49: the acceptance launches the start, and the four phases pass to the stop. -/
theorem writeTransactionSucceeds : Obligations.WriteTransactionSucceeds := by
  intro s a r v ms hs ha hb hm
  obtain ⟨hl, hopen⟩ := leads_opening (i := .writeReg a r v) (validSlaveAddr_of_lt ha) hs hb
  obtain ⟨w, t, ht, hst, hp⟩ := leads_write hopen rfl
  refine ⟨t.setSchedule ms, (hl.append ht).runFor hm, hst.response_of_writeReg hp.carried.op,
    hst.ph, ?_, hst.buf.trans hp.buf, hst.idx.trans hp.idx, hst.len.trans hp.carried.len, ?_, hst.stopBusy,
    rfl⟩
  · rw [State.setSchedule_trace, hst.trace, hp.trace, startLaunched_trace, List.append_assoc,
      List.append_assoc]
    rfl
  · exact (hst.ack.trans hp.ack).trans (startLaunched_ack _)

/-- Settles O50: a read of one byte from its acceptance to its response. -/
theorem singleReadTransactionSucceeds : Obligations.SingleReadTransactionSucceeds := by
  intro s a r d ms hs ha hb hwf hm
  obtain ⟨t, ht, hdone⟩ := leads_acceptedRead (i := .readReg a r) (ds := [d])
    (validSlaveAddr_of_lt ha) hs hb (.inl rfl) nofun rfl hwf
  exact ⟨t.setSchedule ms, ht.runFor hm, hdone.response, hdone.ph,
    hdone.trace_eq (startLaunched_trace _), hdone.ack, rfl⟩

/-- Settles O51: a read of the bytes `ds`; they are all that it writes to `BUF`. -/
theorem burstReadTransactionSucceeds : Obligations.BurstReadTransactionSucceeds := by
  intro s a r ds ms hs ha h1 h255 hb hwf hm
  have hlen := burstLength_toNat h255
  obtain ⟨t, ht, hdone⟩ := leads_acceptedRead
    (launchesStart_readBurst ha r (h1.trans_eq hlen.symm)) hs hb (.inr rfl)
    (List.length_pos_iff.mp h1) hlen hwf
  refine ⟨t.setSchedule ms, ht.runFor hm, hdone.response, hdone.ph,
    hdone.trace_eq (startLaunched_trace _), fun j hj => ?_, hdone.ack, rfl⟩
  rw [State.setSchedule_buf, hdone.buf]
  exact Memory.read_writeAll_outside (.inr (by omega))

/-- Settles O48: the acceptance enters the stop phase, whose two micro-steps launch the stop and
answer. -/
theorem forceStopCommandLaunchesOneStop : Obligations.ForceStopCommandLaunchesOneStop := by
  rintro s ⟨huw, hp, hinit, w, hw, hc⟩ hs
  have haccept : seqStep s =
      .next (((s.setCmd none).setOp .forceStop).setPc .stop .cfg) :=
    (seqStep_command huw hp hc (decodeCmd_forceStop hw)).trans
      (exec_forceStop_accepted (s := s.setCmd none) hp hinit)
  refine ⟨_, (runFor_succ_seqStep hs haccept).trans (runFor_stopPhase huw rfl rfl hs), rfl, rfl,
    rfl, rfl, ?_⟩
  exact proceed_setField_stop_ctrl (((s.setCmd none).setOp .forceStop).setPc .stop .cfg)

/-- Settles O8: the three places an instruction is fetched from. -/
theorem stepRunsDecodedInstruction : Obligations.StepRunsDecodedInstruction := by
  intro s i hnext
  rw [step_eq_seqStep hnext]
  refine ⟨fun w huw hp hc hd => ?_, fun huw hp hi => ⟨?_, wf_of_issue hi⟩, fun w huw hd => ?_⟩
  · exact seqStep_command (s := s.setSchedule _) huw hp hc hd
  · exact seqStep_busy (s := s.setSchedule _) huw hp hi
  · exact seqStep_placed (s := s.setSchedule _) huw hd

/-- Settles O30: on equality the check is sequencing alone, by the phase SEQ is in. -/
theorem checkPassesOnEquality : Obligations.CheckPassesOnEquality := by
  intro k e s he
  rw [exec, execUCheck_pass he]
  refine ⟨fun p hsel hq => ?_, fun hp hu => ?_, advance_elsewhere⟩
  · exact advance_selected hsel (sequel_check_enterPhase hq)
  · have hsel : selected s.ph s.us = some .check := by rw [hp, hu]; rfl
    refine advance_selected hsel ?_
    rw [sequel, if_pos hp, ← hp]
    rfl

/-- Settles O31: `err` names a kind, and the check aborts with it. -/
theorem checkAbortsOnMismatch : Obligations.CheckAbortsOnMismatch := by
  intro k e s h1 h8 hne
  obtain ⟨r, hr, hcode⟩ := exists_ofErrCode h1 h8
  refine ⟨raiseError r s, execUCheck_abort hne hr, hcode, rfl, rfl, rfl, rfl, ?_⟩
  rw [raiseError_eq]

end

section
/-! PROOFS. The transactions (spec/43_transactions.md R170 to R176): the acceptance of each command by
value, and `INIT` from its offer to its response. -/

namespace Sys2Proof.Machine

/-- Initialised, R109 refuses no command but `INIT`. -/
theorem initializedGate_of_initialized {s : State} (h : s.initialized = true) :
    initializedGate s = none := if_pos h

/-- Before initialisation R109 lets `INIT` pass. -/
theorem initGate_of_not_initialized {s : State} (h : s.initialized = false) : initGate s = none := by
  simp [initGate, h]

/-- Idle and not initialised, SEQ accepts `INIT` and enters its phase (R170, R171). -/
theorem exec_init_accepted {s : State} (hp : s.ph = .idle) (hinit : s.initialized = false)
    (d : Byte) : exec (.init d) s = .next (((s.setOp .init).setDivr d).setPc .init .cfg) := by
  rw [exec, execInit, initGate_of_not_initialized hinit,
    accept_idle (State.busy_eq_false_iff.mpr hp)]

/-- A burst of length 0 is answered where it is accepted (R176). -/
theorem exec_readBurst_zero {a : Byte} {s : State} (hp : s.ph = .idle)
    (hinit : s.initialized = true) (ha : a.toNat < 128) (r : Byte) :
    exec (.readBurst a r 0#8) s = .next (respond .invalidLength 0#8
      (((s.setOp .readBurst).setTarget (slaOperand a) r).setLen 0#8)) := by
  rw [exec, execReadBurst, transactionGate_of_lt ha, initializedGate_of_initialized hinit,
    accept_idle (State.busy_eq_false_iff.mpr hp)]
  rfl

theorem decodeCmd_init {d : Byte} {w : CmdWord} (hw : encode (.init d) = .cmd w) :
    decodeCmd w = .ok (.init d) :=
  decode_eq_ok_iff.mpr ⟨rfl, hw⟩

end Sys2Proof.Machine

open Sys2Proof Sys2Proof.Machine

/-- Settles O11: R109's gate is open, and the acceptance loads `DIVR`. -/
theorem initAcceptance : Obligations.InitAcceptance :=
  fun d _ hp hinit => exec_init_accepted hp hinit d

/-- Settles O12: the three transactions launch a start, so each is accepted. -/
theorem transactionAcceptance : Obligations.TransactionAcceptance := by
  intro a r x s hp hinit ha
  have haddr : validSlaveAddr a = true := validSlaveAddr_of_lt ha
  refine ⟨exec_launchesStart (i := .writeReg a r x) haddr hp hinit,
    exec_launchesStart (i := .readReg a r) haddr hp hinit, fun hx => ?_⟩
  exact exec_launchesStart (i := .readBurst a r x) (by simp [launchesStart, haddr, hx]) hp hinit

/-- Settles O13: the length validation of R176. -/
theorem zeroLengthBurstAnswersInvalidLength : Obligations.ZeroLengthBurstAnswersInvalidLength :=
  fun _ r _ hp hinit ha => exec_readBurst_zero hp hinit ha r

/-- Settles O14: R109's gate is open, and the acceptance enters the stop phase. -/
theorem forceStopAcceptance : Obligations.ForceStopAcceptance :=
  fun _ hp hinit => exec_forceStop_accepted hp hinit

/-- Settles O47: the acceptance enters phase `INIT`, whose one micro-step configures the controller
and answers. -/
theorem initCommandConfigures : Obligations.InitCommandConfigures := by
  intro s d w huw hp hinit hs hw hc
  have haccept : seqStep s = .next ((((s.setCmd none).setOp .init).setDivr d).setPc .init .cfg) :=
    (seqStep_command huw hp hc (decodeCmd_init hw)).trans
      (exec_init_accepted (s := s.setCmd none) hp hinit d)
  have hconfigure := seqStep_init
    (s := (((s.setCmd none).setOp .init).setDivr d).setPc .init .cfg) huw rfl
  refine ⟨_, (runFor_succ_seqStep hs haccept).trans (runFor_succ_seqStep (n := 0) hs hconfigure),
    rfl, rfl, storeCtrl_initByte s.ctrl, rfl, rfl, rfl⟩

end

section
/-! PROOFS. A burst of one byte beside a single read (spec/43_transactions.md R179): one run by value
for both, whatever the form of `BUF`. -/

namespace Sys2Proof.Machine

/-- A read of the bytes `ds` from the launch of its opening start.  Unlike `leads_read` it asks nothing
of the form of `BUF`, so the bytes of the response are what `BUF` then reads as (R173, R174). -/
theorem leads_readAnyBuffer {s : State} (h : Opening s) (hop : s.op = .readReg ∨ s.op = .readBurst)
    {ds : List Byte} (hds : ds ≠ []) (hlen : s.len.toNat = ds.length) :
    ∃ t, Leads (afterLaunch (readMoves ds)) s t ∧
      t.response =
        some ⟨.ok, s.len, (List.range ds.length).map (s.buf.writeAll 0 ds).read⟩ ∧
      t.trace = s.trace ++ ([.tx (slaByte s.sla Config.dirWrite), .tx (regAddrByte s.op s.reg),
        .start, .tx (slaByte s.sla Config.dirRead)] ++ receiveTrace ds.length ++ [.stop]) := by
  obtain ⟨a, ha, hfirst⟩ := leads_readOpening h hop
  obtain ⟨b, hb, hall⟩ := leads_receiveMoves (ds := ds) (hfirst.carried.uw.trans h.uw) hfirst.ph
    hfirst.us (by rwa [hfirst.carried.op]) hds (by simp [hfirst.idx, hfirst.carried.len, hlen])
  have hcarried : Carried s b := hfirst.carried.trans hall.carried
  obtain ⟨t, ht, hst⟩ := leads_stopMoves (hcarried.uw.trans h.uw) hall.ph hall.us
  obtain ⟨hvalid, hok, hcount⟩ := hst.response
  have hlast : t.count = s.len := by rw [hcount, okCount_eq, hcarried.op, if_pos hop, hcarried.len]
  have hbuf : t.buf = s.buf.writeAll 0 ds := by
    rw [hst.buf, hall.buf, hfirst.idx, hfirst.buf]
    rfl
  refine ⟨t, (ha.append hb).append ht, ?_, ?_⟩
  · rw [State.response, hvalid, hok, hlast, hbuf, hlen]
    rfl
  · rw [hst.trace, hall.trace, hfirst.trace]
    simp

/-- A read of one byte from its acceptance to its response, for either command (R173, R174). -/
theorem leads_oneByteRead {i : Instr} {s : State} (hi : launchesStart i = true) (hs : Offers i s)
    (hb : s.stopBusy = false)
    (hop : ((s.setCmd none).opened i).op = .readReg ∨ ((s.setCmd none).opened i).op = .readBurst)
    (hlen : ((s.setCmd none).opened i).len = 1#8) (d : Byte) :
    ∃ t, Leads (.seq :: readMoves [d]) s t ∧
      t.response = some ⟨.ok, 1#8, [(s.buf.write 0 d).read 0]⟩ ∧
      t.trace = s.trace ++ readTrace ((s.setCmd none).opened i).sla
        (regAddrByte ((s.setCmd none).opened i).op ((s.setCmd none).opened i).reg) 1 := by
  obtain ⟨-, -, -, -, -, htrace, -, hbuf⟩ := opened_start hi (s.setCmd none)
  obtain ⟨hl, hopen⟩ := leads_opening hi hs hb
  obtain ⟨t, ht, hresp, hgrown⟩ :=
    leads_readAnyBuffer hopen hop (ds := [d]) nofun (congrArg BitVec.toNat hlen)
  refine ⟨t, hl.append ht, ?_, ?_⟩
  · have hlbuf : ((s.setCmd none).opened i).startLaunched.buf = s.buf := hbuf
    have hllen : ((s.setCmd none).opened i).startLaunched.len = 1#8 := hlen
    rw [hresp, hlbuf, hllen]
    rfl
  · rw [hgrown, startLaunched_trace, htrace, List.append_assoc]
    rfl

/-- The traces of two reads of one device have the same kinds of primitives (R179). -/
theorem map_kind_readTrace (sla : SlaveAddr) (b b' : Byte) (n : Nat) :
    (readTrace sla b n).map TraceEntry.kind = (readTrace sla b' n).map TraceEntry.kind := rfl

/-- The register-address byte is what tells two traces of reads of one device apart. -/
theorem readTrace_inj {sla : SlaveAddr} {b b' : Byte} {n : Nat} :
    readTrace sla b n = readTrace sla b' n ↔ b = b' := by
  simp [readTrace]

/-- Setting the auto-increment flag changes nothing exactly where it is set already (R96, R179). -/
theorem eq_or_autoincFlag_iff (r : Byte) : r = r ||| 0x80#8 ↔ r.getLsbD 7 = true := by
  revert r
  decide

end Sys2Proof.Machine

open Sys2Proof Sys2Proof.Machine

/-- Settles O52: the two reads are accepted with the same registers but `OP`, which decides the
register-address byte alone. -/
theorem burstOfOneMatchesSingleRead : Obligations.BurstOfOneMatchesSingleRead := by
  intro s u a r d ms hs hu hburst ha hb hm
  obtain ⟨t, ht, hresp, htrace⟩ := leads_oneByteRead (i := .readReg a r)
    (validSlaveAddr_of_lt ha) hs hb (.inl rfl) rfl d
  rw [hu] at hburst ⊢
  obtain ⟨v, hv, hresp', htrace'⟩ := leads_oneByteRead (s := { s with cmd := u.cmd })
    (i := .readBurst a r 1#8) (launchesStart_readBurst ha r (by decide)) hburst hb (.inr rfl) rfl d
  refine ⟨t.setSchedule ms, v.setSchedule ms, ht.runFor hm, hv.runFor hm, hresp.trans hresp'.symm,
    ?_, ?_⟩
  · rw [State.setSchedule_trace, State.setSchedule_trace, htrace, htrace', List.map_append,
      List.map_append]
    exact congrArg _ (map_kind_readTrace _ _ _ 1)
  · rw [State.setSchedule_trace, State.setSchedule_trace, htrace, htrace', List.append_right_inj]
    exact readTrace_inj.trans (eq_or_autoincFlag_iff r)

end

section
/-! PROOFS. The block with the reference slave (spec/95_test_vectors.md section 2, section 9;
spec/43_transactions.md R182).  The closed system chooses each move itself, by what CTL has to do in
the state before it, so its runs are put together from the single rows of R150 and not from the runs
under a given schedule; then the phases, a write, a read, and the round trip. -/

namespace Sys2Proof.Machine

/-! ## Runs of the closed system, whatever schedule stands in the state -/

theorem RefSystem.run_add {m : Nat} {y z : RefSystem} (h : RefSystem.run m y = some z) (n : Nat) :
    RefSystem.run (m + n) y = RefSystem.run n z := by
  induction m generalizing y with
  | zero => cases h; rw [Nat.zero_add]
  | succ m ih =>
    rw [RefSystem.run] at h
    rw [Nat.succ_add, RefSystem.run]
    split at h
    next => exact ih h
    next => cases h
    next => cases h

/-- The closed system comes from the slave `v` and the block `s` to `v'` and `t`.  It chooses its own
moves, so the schedules of the two states do not matter. -/
def Reaches (v : RefSlave) (s : State) (v' : RefSlave) (t : State) : Prop :=
  ∃ n, ∀ ms, ∃ ms', RefSystem.run n ⟨v, s.setSchedule ms⟩ = some ⟨v', t.setSchedule ms'⟩

theorem Reaches.trans {v v' v'' : RefSlave} {s t u : State} (h : Reaches v s v' t)
    (h' : Reaches v' t v'' u) : Reaches v s v'' u := by
  obtain ⟨m, hm⟩ := h
  obtain ⟨n, hn⟩ := h'
  refine ⟨m + n, fun ms => ?_⟩
  obtain ⟨ms', hms'⟩ := hm ms
  obtain ⟨ms'', hms''⟩ := hn ms'
  exact ⟨ms'', (RefSystem.run_add hms' n).trans hms''⟩

/-- What the closed system's own move leads to. -/
theorem reaches_of_move {v v' : RefSlave} {s t : State} {m : Move}
    (hm : (RefSystem.mk v s).move = (m, v')) (h : Leads [m] s t) : Reaches v s v' t := by
  refine ⟨1, fun ms => ⟨[], ?_⟩⟩
  have hstep : step (s.setSchedule [m]) = .next (t.setSchedule []) := by
    obtain ⟨x, hx, hrun⟩ := runFor_succ_next (h [])
    cases hrun
    exact hx
  have hmove : (RefSystem.mk v (s.setSchedule ms)).move = (m, v') := hm
  have hmoved : step ((s.setSchedule ms).setSchedule [m]) = .next (t.setSchedule []) := hstep
  simp only [RefSystem.run, hmove, hmoved]

/-- Nothing of CTL's is to come. -/
def Calm (s : State) : Prop := s.inflight = none ∧ s.stopBusy = false

/-- SEQ steps where CTL has nothing to do. -/
theorem reaches_seq {s t : State} (h : Leads [.seq] s t) (hc : Calm s) (v : RefSlave) :
    Reaches v s v t :=
  reaches_of_move (by simp [RefSystem.move, hc.1, hc.2]) h

/-- The slave answers what is in flight. -/
theorem reaches_complete {v v' : RefSlave} {s : State} {p : InFlight} {st : Status} {d : Byte}
    (hf : s.inflight = some p) (hb : s.stopBusy = false)
    (ha : v.answer p s.busOwned = (st, d, v')) : Reaches v s v' (completeWith p st d s) := by
  have he : s.completeEnabled = true := completeEnabled_iff.mpr ⟨p, hf, fun _ => hb⟩
  exact reaches_of_move (by simp [RefSystem.move, hf, he, ha]) (leads_complete hf (fun _ => hb) st d)

/-- The stop is executed, and the slave leaves the transaction. -/
theorem reaches_stopDone {s : State} (hf : s.inflight = none) (hb : s.stopBusy = true)
    (v : RefSlave) : Reaches v s { v with mode := .idle } (eStopDone s) :=
  reaches_of_move (by simp [RefSystem.move, hf, hb]) (leads_stopDone hb)

/-! ## From a launch to the check -/

/-- `c` is `s` at its check, what was in flight answered `(st, d)`. -/
structure SlaveAnswered (p : InFlight) (st : Status) (d : Byte) (s c : State) : Prop where
  frame : c = { s with
    us := .chk, stLatch := st, inflight := none, busOwned := ownedAfter p st s.busOwned
    dr := dataAfter p d s.draws, ctrl := c.ctrl, sr := c.sr, slave := c.slave, draws := c.draws }
  int : ctrlInt c.ctrl = true

/-- The slave's answer, `U_WAIT`, `U_STATUS`, and `U_CLRSTART` in a start phase. -/
theorem reaches_answered {v v' : RefSlave} {s : State} {p : InFlight} {st : Status} {d : Byte}
    (huw : s.uw = none) (hp : s.ph.awaited) (hu : s.us = .wait) (hf : s.inflight = some p)
    (hb : s.stopBusy = false) (ha : v.answer p s.busOwned = (st, d, v')) :
    ∃ c, Reaches v s v' c ∧ SlaveAnswered p st d s c := by
  obtain ⟨x, hx⟩ : ∃ x, x = completeWith p st d s := ⟨_, rfl⟩
  have hcomplete : Reaches v s v' x := hx ▸ reaches_complete hf hb ha
  rw [completeWith_eq] at hx
  have hph : x.ph = s.ph := by rw [hx]
  have huwx : x.uw = none := by rw [hx]; exact huw
  have hcalm : Calm x := by rw [hx]; exact ⟨rfl, hb⟩
  have hint : ctrlInt x.ctrl = true := by rw [hx]; exact ctrlInt_setInt _
  have hst : statusOf x.sr = st := by rw [hx]; exact statusOf_packSr _ _
  have hwait := leads_wait huwx (hph ▸ hp) (by rw [hx]; exact hu) hint
  have hstat := leads_status (s := x.setPc x.ph .stat) huwx (hph ▸ hp) rfl hint
  rw [State.setPc_sr, hst] at hstat
  have hlatched := (hcomplete.trans (reaches_seq hwait hcalm v')).trans (reaches_seq hstat hcalm v')
  by_cases hstart : x.ph.isStart = true
  · have hus : x.ph.afterStatus = .clr := if_pos hstart
    rw [State.setPc_ph, hus] at hlatched
    have hclr := leads_clrStart (s := ((x.setPc x.ph .stat).setStLatch st).setPc x.ph .clr) huwx
      hstart rfl
    refine ⟨_, hlatched.trans (reaches_seq hclr hcalm v'), ?_, (ctrlInt_setField _ _ _).trans hint⟩
    rw [hx]
    rfl
  · have hus : x.ph.afterStatus = .chk := if_neg hstart
    rw [State.setPc_ph, hus] at hlatched
    refine ⟨_, hlatched, ?_, hint⟩
    rw [hx]
    rfl

/-! ## The phases of a transaction -/

/-- SEQ is at `CFG` between two primitives, and CTL has nothing to do. -/
structure Between (s : State) : Prop where
  uw : s.uw = none
  us : s.us = .cfg
  calm : Calm s

/-- `t` is `s` at `CFG` of the phase `q`, the bus owned or not. -/
structure PhasePassed (q : Phase) (owned : Bool) (s t : State) : Prop where
  frame : t = { s with
    ph := q, us := .cfg, idx := if s.ph = .slar then 0#8 else s.idx, inflight := none
    busOwned := owned, stLatch := t.stLatch, ctrl := t.ctrl, sr := t.sr, dr := t.dr
    trace := t.trace, slave := t.slave, draws := t.draws }

/-- Phases one after another, before `SLAR`. -/
theorem PhasePassed.trans {q q' : Phase} {o o' : Bool} {s t u : State} (h : PhasePassed q o s t)
    (h' : PhasePassed q' o' t u) (hq : q ≠ .slar) : PhasePassed q' o' s u := by
  have hph : t.ph ≠ .slar := by rw [h.frame]; exact hq
  have hframe := h'.frame
  rw [if_neg hph] at hframe
  rw [hframe, h.frame]
  exact ⟨rfl⟩

theorem PhasePassed.ph {q : Phase} {o : Bool} {s t : State} (h : PhasePassed q o s t) :
    t.ph = q := by rw [h.frame]

theorem PhasePassed.owned {q : Phase} {o : Bool} {s t : State} (h : PhasePassed q o s t) :
    t.busOwned = o := by rw [h.frame]

theorem PhasePassed.carried {q : Phase} {o : Bool} {s t : State} (h : PhasePassed q o s t) :
    Carried s t := by
  rw [h.frame]
  exact ⟨rfl, rfl, rfl, rfl, rfl, rfl, rfl⟩

theorem PhasePassed.between {q : Phase} {o : Bool} {s t : State} (h : PhasePassed q o s t)
    (hs : Between s) : Between t := by
  rw [h.frame]
  exact ⟨hs.uw, rfl, rfl, hs.calm.2⟩

/-- From the launch on, with the expected answer. -/
theorem reaches_pass {v v' : RefSlave} {s : State} {p : InFlight} {e : Status} {d : Byte}
    {q : Phase} (huw : s.uw = none) (hu : s.us = .wait) (hf : s.inflight = some p)
    (hb : s.stopBusy = false) (ha : v.answer p s.busOwned = (e, d, v')) (he : s.expected = some e)
    (hq : nextPhase s.op s.ph = some q) :
    ∃ t, Reaches v s v' t ∧ PhasePassed q (ownedAfter p e s.busOwned) s t := by
  have hp : s.ph.awaited := awaited_of_nextPhase hq
  obtain ⟨r, hr⟩ := exists_errorKind_of_nextPhase hq
  obtain ⟨c, hc, hans⟩ := reaches_answered huw hp hu hf hb ha
  have hcheck : Leads [.seq] c (c.enterPhase q) := by
    apply leads_check_pass (r := r) <;> rw [hans.frame]
    · exact huw
    · exact hp
    · exact he
    · exact hr
    · exact hq
  have hcalm : Calm c := by rw [hans.frame]; exact ⟨rfl, hb⟩
  refine ⟨_, hc.trans (reaches_seq hcheck hcalm v'), ?_⟩
  rw [hans.frame]
  exact ⟨rfl⟩

/-- A start phase (R151, R152). -/
theorem reaches_start {s : State} (hs : Between s) (hp : s.ph.isStart = true) {e : Status}
    (he : s.expected = some e) (ho : e = if s.busOwned then Config.stRstartOk else Config.stStartOk)
    {q : Phase} (hq : nextPhase s.op s.ph = some q) (v : RefSlave) :
    ∃ t, Reaches v s { v with mode := .addr } t ∧ PhasePassed q true s t := by
  have hlaunch : Reaches v s v s.startLaunched :=
    (reaches_seq (leads_start hs.uw hp hs.us) hs.calm v).trans
      (reaches_seq (leads_go (s := (s.setField .start true).setPc s.ph .go) hs.uw
        (kind_of_isStart hp) (awaited_of_isStart hp) rfl) hs.calm v)
  obtain ⟨t, ht, hpass⟩ := reaches_pass (s := s.startLaunched) (p := .start) (e := e) (d := 0#8)
    (v := v) (v' := { v with mode := .addr }) hs.uw rfl rfl hs.calm.2
    (by rw [ho]; rfl) he hq
  have howned : ownedAfter .start e s.busOwned = true := by
    refine ownedAfter_start ⟨rfl, ?_⟩
    rw [ho]
    split
    · exact .inr rfl
    · exact .inl rfl
  exact ⟨t, hlaunch.trans ht, ⟨howned ▸ hpass.frame⟩⟩

/-- A transmit phase (R153). -/
theorem reaches_tx {v v' : RefSlave} {s : State} (hs : Between s) (hk : s.ph.kind = some .tx)
    {b : Byte} (hb : s.phaseByte = some b) {e : Status} (ha : v.answerTx b = (e, v'))
    (he : s.expected = some e) {q : Phase} (hq : nextPhase s.op s.ph = some q) {o : Bool}
    (ho : s.busOwned = o) : ∃ t, Reaches v s v' t ∧ PhasePassed q o s t := by
  have hlaunch : Reaches v s v (s.txLaunched b) :=
    (reaches_seq (leads_wbyte hs.uw hk hs.us hb) hs.calm v).trans
      (reaches_seq (leads_go (s := (s.setDr b).setPc s.ph .go) hs.uw hk
        (awaited_of_kind_tx hk) rfl) hs.calm v)
  have hans : v.answer (.tx b) s.busOwned = (e, 0#8, v') := by simp [RefSlave.answer, ha]
  obtain ⟨t, ht, hpass⟩ := reaches_pass (s := s.txLaunched b) (p := .tx b) hs.uw rfl rfl hs.calm.2
    hans he hq
  exact ⟨t, hlaunch.trans ht, ⟨ho ▸ hpass.frame⟩⟩

/-- `t` is `s` at its stop, the byte `d` at `BUF[IDX]`. -/
structure LastReceived (d : Byte) (s t : State) : Prop where
  frame : t = { s with
    ph := .stop, us := .cfg, inflight := none, buf := s.buf.write s.idx.toNat d
    stLatch := t.stLatch, ctrl := t.ctrl, sr := t.sr, dr := t.dr, trace := t.trace
    slave := t.slave, draws := t.draws }

theorem LastReceived.between {d : Byte} {s t : State} (h : LastReceived d s t) (hs : Between s) :
    Between t := by
  rw [h.frame]
  exact ⟨hs.uw, rfl, rfl, hs.calm.2⟩

/-- The receive phase of the last byte, which is not acknowledged (R154, R159). -/
theorem reaches_lastByte {v v' : RefSlave} {s : State} (hs : Between s) (hp : s.ph = .rx)
    (hop : s.op = .readReg) (hidx : s.idx.toNat < Config.maxBurst) (hlast : s.isLast = true)
    {d : Byte} (ha : v.answerRx false = (Config.stReadNackOk, d, v')) :
    ∃ t, Reaches v s v' t ∧ LastReceived d s t := by
  have hlaunch : Reaches v s v s.rxLaunched :=
    (reaches_seq (leads_ack hs.uw hp hs.us) hs.calm v).trans
      (reaches_seq (leads_go (s := (s.setField .ack s.ackLevel).setPc s.ph .go) hs.uw
        (by rw [State.setPc_ph, hp]; rfl) (by rw [State.setPc_ph, hp]; exact awaited_rx) rfl)
        hs.calm v)
  have hlevel : ctrlField .ack s.rxLaunched.ctrl = false := by
    rw [rxLaunched_level, State.ackLevel, hlast]
    rfl
  have hfly : s.rxLaunched.inflight = some (.rx false) := hlevel ▸ rfl
  obtain ⟨c, hc, hans⟩ := reaches_answered (s := s.rxLaunched) (p := .rx false) hs.uw
    (hp ▸ awaited_rx) rfl hfly hs.calm.2 ha
  have hph : c.ph = .rx := by rw [hans.frame]; exact hp
  have hclast : c.isLast = true := by rw [hans.frame]; exact hlast
  have huw : c.uw = none := by rw [hans.frame]; exact hs.uw
  have hcalm : Calm c := by rw [hans.frame]; exact ⟨rfl, hs.calm.2⟩
  have hlatch : c.stLatch = Config.stReadNackOk := by rw [hans.frame]
  have hcop : c.op = .readReg := by rw [hans.frame]; exact hop
  have hcheck : Leads [.seq] c (c.setPc c.ph .data) :=
    leads_check_byte (r := .readError) huw hph (by rw [hans.frame])
      (by simp [State.expected, hph, hclast, hlatch])
      (by simp [State.errorKind, hph, hclast, hcop])
  have hstore := leads_rbyte (s := c.setPc c.ph .data) huw hph rfl hans.int
    (by rw [hans.frame]; exact hidx)
  refine ⟨_, ((hlaunch.trans hc).trans (reaches_seq hcheck hcalm v')).trans
    (reaches_seq hstore hcalm v'), ?_⟩
  rw [State.nextByte, if_pos (by exact hclast), hans.frame]
  exact ⟨rfl⟩

/-- `t` is `s` after its stop: the command answered, the bus released. -/
structure Finished (s t : State) : Prop where
  frame : t = { s with
    ph := .idle, us := .cfg, result := .ok, count := s.okCount, resultValid := true
    stopBusy := false, busOwned := false, ctrl := t.ctrl, trace := t.trace, slave := t.slave
    draws := t.draws }

/-- The stop phase and the end of its stop (R74, R155). -/
theorem reaches_finished {s : State} (hs : Between s) (hp : s.ph = .stop) (v : RefSlave) :
    ∃ t, Reaches v s { v with mode := .idle } t ∧ Finished s t := by
  have hgo := leads_goStop (s := (s.setField .stop true).setPc s.ph .go) hs.uw hp rfl
  have hend := reaches_stopDone
    (s := respond .ok s.okCount (((s.setField .stop true).setPc s.ph .go).proceed .stop))
    hs.calm.1 rfl v
  refine ⟨_, ((reaches_seq (leads_stop hs.uw hp hs.us) hs.calm v).trans
    (reaches_seq hgo hs.calm v)).trans hend, ?_⟩
  rw [eStopDone_eq rfl]
  exact ⟨rfl⟩

/-! ## What the slave answers -/

/-- An address byte read back: the address, and the direction in bit 0 (R95). -/
theorem slaByte_fields (a : SlaveAddr) (d : BitVec 1) :
    (slaByte a d).extractLsb' 1 7 = a ∧ (slaByte a d).getLsbD 0 = d.getLsbD 0 := by
  refine ⟨BitVec.eq_of_getLsbD_eq fun i hi => ?_, ?_⟩
  · rw [BitVec.getLsbD_extractLsb', slaByte, BitVec.getLsbD_append]
    simp [hi]
  · rw [slaByte, BitVec.getLsbD_append, if_pos (by decide)]

theorem answerTx_slaByte_write {v : RefSlave} (hm : v.mode = .addr) :
    v.answerTx (slaByte v.addr Config.dirWrite) = (Config.stSlawAck, { v with mode := .wFirst }) := by
  obtain ⟨haddr, hdir⟩ := slaByte_fields v.addr Config.dirWrite
  simp only [RefSlave.answerTx, hm, haddr, hdir, if_true]
  rfl

theorem answerTx_slaByte_read {v : RefSlave} (hm : v.mode = .addr) :
    v.answerTx (slaByte v.addr Config.dirRead) = (Config.stSlarAck, { v with mode := .r }) := by
  obtain ⟨haddr, hdir⟩ := slaByte_fields v.addr Config.dirRead
  simp only [RefSlave.answerTx, hm, haddr, hdir, if_true]
  rfl

/-- The slave with its pointer set by the register-address byte `b`. -/
def RefSlave.pointedAt (v : RefSlave) (b : Byte) : RefSlave :=
  { v with ptr := b.extractLsb' 0 7, ai := b.getLsbD 7, mode := .w }

theorem answerTx_pointer {v : RefSlave} (hm : v.mode = .wFirst) (b : Byte) :
    v.answerTx b = (Config.stWriteAck, v.pointedAt b) := by
  simp [RefSlave.answerTx, hm, RefSlave.pointedAt]

/-- Below `0x80` the register-address byte is the pointer, and it asks for no auto-increment. -/
theorem pointedAt_of_lt {b : Byte} (hb : b.toNat < 128) (v : RefSlave) :
    (v.pointedAt b).ptr.toNat = b.toNat ∧ (v.pointedAt b).ai = false := by
  refine ⟨?_, ?_⟩
  · simp [RefSlave.pointedAt, Nat.mod_eq_of_lt hb]
  · exact Nat.testBit_lt_two_pow (i := 7) hb

/-- Without auto-increment a written byte goes to the pointer, which stays. -/
theorem answerTx_store {v : RefSlave} (hm : v.mode = .w) (hai : v.ai = false) (b : Byte) :
    v.answerTx b = (Config.stWriteAck, { v with rf := v.rf.write v.ptr.toNat b }) := by
  simp [RefSlave.answerTx, hm, RefSlave.bump, RefSlave.inc, hai]

theorem answerRx_last {v : RefSlave} (hm : v.mode = .r) :
    v.answerRx false = (Config.stReadNackOk, v.byte, { v.bump with mode := .off }) := by
  simp [RefSlave.answerRx, hm, rxStatus]

/-! ## Whole transactions -/

/-- The start, the device address and the register address of a transaction that finds the bus free
(R172, R173). -/
theorem reaches_pointed {v : RefSlave} {s : State} (hs : Between s) (hp : s.ph = .start)
    (ho : s.busOwned = false) (hsla : s.sla = v.addr) (hop : s.op ≠ .readBurst) {q : Phase}
    (hq : nextPhase s.op .rega = some q) :
    ∃ t, Reaches v s (v.pointedAt s.reg) t ∧ PhasePassed q true s t := by
  obtain ⟨a, ha, hpa⟩ := reaches_start hs (by rw [hp]; rfl) (e := Config.stStartOk) (q := .slaw)
    (by simp [State.expected, hp]) (by simp [ho]) (by simp [nextPhase, hp]) v
  obtain ⟨b, hb, hpb⟩ := reaches_tx (hpa.between hs) (by rw [hpa.ph]; rfl) (e := Config.stSlawAck)
    (q := .rega) (b := slaByte v.addr Config.dirWrite)
    (by simp [State.phaseByte, hpa.ph, hpa.carried.sla, hsla])
    (answerTx_slaByte_write (v := { v with mode := .addr }) rfl)
    (by simp [State.expected, hpa.ph]) (by simp [nextPhase, hpa.ph]) hpa.owned
  have hab := hpa.trans hpb (by decide)
  obtain ⟨c, hc, hpc⟩ := reaches_tx (hab.between hs) (by rw [hab.ph]; rfl) (e := Config.stWriteAck)
    (q := q) (b := s.reg)
    (by simp [State.phaseByte, hab.ph, regAddrByte, hab.carried.op, hab.carried.reg, hop])
    (answerTx_pointer (v := { v with mode := .wFirst }) rfl s.reg)
    (by simp [State.expected, hab.ph]) (by rw [hab.carried.op, hab.ph]; exact hq) hab.owned
  exact ⟨c, (ha.trans hb).trans hc, hab.trans hpc (by decide)⟩

/-- A single read up to its byte: the repeated start finds the bus owned (R173). -/
theorem reaches_firstByte {v : RefSlave} {s : State} (hs : Between s) (hp : s.ph = .start)
    (ho : s.busOwned = false) (hsla : s.sla = v.addr) (hop : s.op = .readReg) :
    ∃ t, Reaches v s { v.pointedAt s.reg with mode := .r } t ∧ Between t ∧ Carried s t ∧
      t.ph = .rx ∧ t.idx = 0#8 ∧ t.buf = s.buf := by
  obtain ⟨a, ha, hpa⟩ := reaches_pointed hs hp ho hsla (by simp [hop]) (q := .rstart)
    (by simp [nextPhase, hop])
  obtain ⟨b, hb, hpb⟩ := reaches_start (hpa.between hs) (by rw [hpa.ph]; rfl)
    (e := Config.stRstartOk) (q := .slar) (by simp [State.expected, hpa.ph]) (by simp [hpa.owned])
    (by simp [nextPhase, hpa.ph, hpa.carried.op, hop]) (v.pointedAt s.reg)
  have hab := hpa.trans hpb (by decide)
  obtain ⟨c, hc, hpc⟩ := reaches_tx (hab.between hs) (by rw [hab.ph]; rfl)
    (e := Config.stSlarAck) (q := .rx) (b := slaByte v.addr Config.dirRead)
    (by simp [State.phaseByte, hab.ph, hab.carried.sla, hsla])
    (answerTx_slaByte_read (v := { v.pointedAt s.reg with mode := .addr }) rfl)
    (by simp [State.expected, hab.ph]) (by simp [nextPhase, hab.ph, hab.carried.op, hop]) hab.owned
  refine ⟨c, (ha.trans hb).trans hc, hpc.between (hab.between hs), hab.carried.trans hpc.carried,
    hpc.ph, ?_, ?_⟩
  · rw [hpc.frame]
    exact if_pos hab.ph
  · rw [hpc.frame, hab.frame]

/-- HOST may offer a command: SEQ is idle and initialised, CTL has nothing to do, the bus is free. -/
structure Resting (s : State) : Prop where
  uw : s.uw = none
  ph : s.ph = .idle
  initialized : s.initialized = true
  calm : Calm s
  owned : s.busOwned = false

/-- The acceptance of an offered transaction (R170). -/
theorem reaches_opened {i : Instr} {s : State} {w : CmdWord} (hi : launchesStart i = true)
    (hs : Resting s) (hw : encode i = .cmd w) (v : RefSlave) :
    Reaches v (s.setCmd (some w)) v ((s.setCmd none).opened i) :=
  reaches_seq (leads_opened (s := s.setCmd (some w)) hi
    ⟨hs.uw, hs.ph, hs.initialized, w, hw, rfl⟩) hs.calm v

/-- A write of a register below `0x80` of the slave stores the byte and answers `Ok` (R172). -/
theorem reaches_write {v : RefSlave} {s : State} {a r x : Byte} {w : CmdWord} (hs : Resting s)
    (hw : encode (.writeReg a r x) = .cmd w) (ha : a.toNat < 128) (hr : r.toNat < 128)
    (haddr : v.addr = a.setWidth 7) :
    ∃ v' t, Reaches v (s.setCmd (some w)) v' t ∧ Resting t ∧
      t.response = some ⟨.ok, 0#8, []⟩ ∧ t.buf = s.buf ∧
      v'.addr = v.addr ∧ v'.rf = v.rf.write r.toNat x := by
  have hopen := reaches_opened (i := .writeReg a r x) (validSlaveAddr_of_lt ha) hs hw v
  obtain ⟨hptr, hai⟩ := pointedAt_of_lt hr v
  have hbetween : Between ((s.setCmd none).opened (.writeReg a r x)) := ⟨hs.uw, rfl, hs.calm⟩
  obtain ⟨b, hb, hpb⟩ := reaches_pointed hbetween rfl hs.owned haddr.symm nofun (q := .value) rfl
  obtain ⟨c, hc, hpc⟩ := reaches_tx (hpb.between hbetween) (by rw [hpb.ph]; rfl)
    (e := Config.stWriteAck) (q := .stop) (b := x)
    (by simp only [State.phaseByte, hpb.ph, hpb.carried.val]; rfl)
    (answerTx_store (v := v.pointedAt r) rfl hai x)
    (by simp [State.expected, hpb.ph]) (by rw [hpb.carried.op, hpb.ph]; rfl) hpb.owned
  have hbc := hpb.trans hpc (by decide)
  obtain ⟨t, ht, hfin⟩ := reaches_finished (hbc.between hbetween) hbc.ph
    { v.pointedAt r with rf := v.rf.write (v.pointedAt r).ptr.toNat x }
  rw [hptr] at hc ht
  have hframe := hfin.frame
  rw [hbc.frame] at hframe
  refine ⟨_, t, ((hopen.trans hb).trans hc).trans ht, ?_, ?_, ?_, rfl, rfl⟩ <;> rw [hframe]
  · exact ⟨hs.uw, rfl, hs.initialized, ⟨rfl, rfl⟩, rfl⟩
  · rfl
  · rfl

/-- A read of a register below `0x80` of the slave answers the byte it holds (R173). -/
theorem reaches_read {v : RefSlave} {s : State} {a r : Byte} {w : CmdWord} (hs : Resting s)
    (hw : encode (.readReg a r) = .cmd w) (ha : a.toNat < 128) (hr : r.toNat < 128)
    (haddr : v.addr = a.setWidth 7) (hwf : s.buf.wf = true) :
    ∃ v' t, Reaches v (s.setCmd (some w)) v' t ∧ t.ph = .idle ∧
      t.response = some ⟨.ok, 1#8, [v.rf.read r.toNat]⟩ := by
  have hopen := reaches_opened (i := .readReg a r) (validSlaveAddr_of_lt ha) hs hw v
  obtain ⟨b, hb, hbetween, hcarried, hph, hidx, hbuf⟩ :=
    reaches_firstByte (s := (s.setCmd none).opened (.readReg a r)) ⟨hs.uw, rfl, hs.calm⟩ rfl
      hs.owned haddr.symm rfl
  have hlen : b.len = 1#8 := hcarried.len
  obtain ⟨c, hc, hlast⟩ := reaches_lastByte hbetween hph hcarried.op (by rw [hidx]; decide)
    (by rw [State.isLast, hidx, hlen]; rfl)
    (answerRx_last (v := { v.pointedAt r with mode := .r }) rfl)
  obtain ⟨t, ht, hfin⟩ := reaches_finished (hlast.between hbetween) (by rw [hlast.frame]) _
  have hcount : c.okCount = 1#8 := by
    rw [okCount_eq, hlast.frame]
    exact (if_pos (.inl hcarried.op)).trans hlen
  have hread : c.buf.read 0 = v.rf.read r.toNat := by
    rw [hlast.frame, hidx, hbuf, ← (pointedAt_of_lt hr v).1]
    exact Memory.read_write_same hwf 0 _
  refine ⟨_, t, ((hopen.trans hb).trans hc).trans ht, by rw [hfin.frame], ?_⟩
  rw [hfin.frame, hcount, ← hread]
  rfl

end Sys2Proof.Machine

open Sys2Proof Sys2Proof.Machine

/-- Settles O54: the write stores the value in the slave, and the read that follows answers what the
slave holds. -/
theorem roundTripAgainstReferenceSlave : Obligations.RoundTripAgainstReferenceSlave := by
  intro y a r x ww wr hww hwr ha hr haddr hrf huw hp hinit hf hb ho hwf
  obtain ⟨v, t, ⟨n, hn⟩, hrest, hresp, hbuf, haddr', hrf'⟩ :=
    reaches_write ⟨huw, hp, hinit, ⟨hf, hb⟩, ho⟩ hww ha hr haddr
  obtain ⟨v', u, ⟨m, hm⟩, hidle, hread⟩ :=
    reaches_read hrest hwr ha hr (haddr'.trans haddr) (hbuf ▸ hwf)
  obtain ⟨ms, hrun⟩ := hn y.state.schedule
  obtain ⟨ms', hrun'⟩ := hm ms
  rw [hrf', Memory.read_write_same hrf] at hread
  exact ⟨n, ⟨v, t.setSchedule ms⟩, m, ⟨v', u.setSchedule ms'⟩, hrun, hrest.ph, hresp, hrun', hidle,
    hread⟩

end

section
/-! PROOFS. SEQ at rest (spec/70_reset_and_hazards.md R231). -/

open Sys2Proof Sys2Proof.Machine

/-- Settles O10: with no move to come the step is SEQ's, and SEQ does nothing. -/
theorem idleWithoutCommandDoesNothing : Obligations.IdleWithoutCommandDoesNothing := by
  intro s huw hp hc hs
  rw [step_nil hs, seqStep_nothing huw hp hc]

end

section
/-! PROOFS. The written words (spec/95_test_vectors.md section 3). -/

open Sys2Proof

/-- Settles O4: each of the nine words is the encoder's word for the instruction named there, and a
word decodes to exactly the decodable instruction whose word it is. -/
theorem writtenWordsDecode : Obligations.WrittenWordsDecode := by
  unfold Obligations.WrittenWordsDecode
  simp only [decode_eq_ok_iff]
  decide

end
